-- ==== Sys2Proof/Word.lean ====
section
/-!
DEFINITION. The word types of the block (00_scope.md R5, R7): each abbreviates a bit vector of the width the
spec gives the quantity.
-/

namespace Sys2Proof

/-- A byte: 8 bits (R7). -/
abbrev Byte := BitVec 8

/-- A raw sensor value or a bound of a map, in millivolts, unsigned: `RAW_W` = 32 (R5). -/
abbrev Raw := BitVec 32

/-- A mapped or fused throttle position, 0 to 65535: `POS_W` = 16 (R5). -/
abbrev Pos := BitVec 16

/-- A signed 16-bit field (`torque`, `current`, `rpm`), held as its two's complement bits (R7, `as_u16`). -/
abbrev I16 := BitVec 16

/-- A Timeout's reset value or counter: `TICK_W` = 32 (R5). -/
abbrev Tick := BitVec 32

/-- The ping counter and a received pong: `PING_W` = 32 (R5). -/
abbrev Ping := BitVec 32

/-- A CAN arbitration identifier: `ID_W` = 11 (R5). -/
abbrev CanId := BitVec 11

/-- A packed command word: 160 bits (R46). -/
abbrev CmdWord := BitVec 160

/-- A packed response word: 96 bits (R48). -/
abbrev RspWord := BitVec 96

/-- A raw CAN frame as a word: the operand fields of format D (R47) from bit 0 up: identifier in bits 10:0,
presence in bit 11, length in bits 15:12, payload byte k in bits 23+8k : 16+8k. DESIGN CHOICE, unsafe (log 5):
the spec gives the CAN_ID space an identifier of 11 bits and no word. -/
abbrev FrameWord := BitVec 80

end Sys2Proof
end

