-- ==== Sys2Proof/Config.lean ====
section
/-!
DEFINITION. The implementation parameters of 00_scope.md R5. The open ones have no body, so that every claim
holds for every value of them.
-/

namespace Sys2Proof.Config

/-- `EV_POLY`: the CRC polynomial of the vehicle frames (R5, R90). -/
abbrev evPoly : Byte := 0x85#8

/-- `GEN_POLY`: the generic polynomial; test vectors only (R5, R76). -/
abbrev genPoly : Byte := 0x07#8

/-- `CRC_INIT`: the initial checksum state (R5, R72). -/
abbrev crcInit : Byte := 0x00#8

/-- `POS_MAX`: the full-throttle output (R5, R101). -/
abbrev posMax : Nat := 65535

/-- `MV_SCALE`: from the raw inverter voltage field to `millivolt` (R5, R59). -/
abbrev mvScale : Nat := 500

/-- `CTR_SHIFT`: the left shift of the TorqueRequest counter in its byte (R5, R34). -/
abbrev ctrShift : Nat := 6

/-- `PAYLOAD_MAX`: the longest payload in bytes (R5). -/
abbrev payloadMax : Nat := 8

/-- `CRC_N_MAX`: the most bytes one CRC.SUM command carries (R5, R74). -/
abbrev crcNMax : Nat := 15

/-- `PING_SEND_RESETS` (R5, R130; 92_eei_decisions.md D19, OPEN): whether MMON.PING also restarts the
liveness Timeout. No body: a claim holds for both values (log 6, safe). -/
opaque pingSendResets : Bool

/-- `MAIN_FAULT_STICKY` (R5, R143; D24, OPEN): whether the Main fault flag stays set until reset. No body
(log 7, safe). -/
opaque mainFaultSticky : Bool

/-- `PLAUS(pos, torque)` (R5, R135; D23, OPEN): the torque plausibility predicate, a function of its two
operands alone. No body (log 8, safe). -/
opaque plaus : Pos → I16 → Bool

/-- The open parameters together, so that an operation that depends on them can also be run at a named
value of each (R21: parameters of the step function). -/
structure Params where
  /-- `PING_SEND_RESETS` -/
  pingSendResets : Bool
  /-- `MAIN_FAULT_STICKY` -/
  mainFaultSticky : Bool
  /-- `PLAUS` -/
  plaus : Pos → I16 → Bool

/-- The parameters of the machine that `exec` runs: the open constants. -/
def params : Params := ⟨pingSendResets, mainFaultSticky, plaus⟩

/-- `LAYOUT` (R5; R54 to R58; D7): the byte offset of every field in every frame, and the filler of the bytes
and bits no field owns. The codec takes it as an argument; its default, the one the machine runs, is
`Sys2Proof.Machine.defaultLayout` (log 9). -/
structure Layout where
  /-- TorqueRequest `torque`, 16 bits (R54) -/
  torqueAt : Nat
  /-- the byte whose top two bits are the TorqueRequest `counter` (R54) -/
  torqueCounterAt : Nat
  /-- VcmKeepAlive1 `counter`, 8 bits (R55) -/
  keepAliveCounterAt : Nat
  /-- InverterStatus raw voltage, 16 bits (R57) -/
  voltageAt : Nat
  /-- InverterStatus `current`, 16 bits (R57) -/
  currentAt : Nat
  /-- InverterStatus `rpm`, 16 bits (R57) -/
  rpmAt : Nat
  /-- InverterStatus `error`, 8 bits (R57) -/
  errorAt : Nat
  /-- InverterTemperature `motor_temperature`, 8 bits (R58) -/
  motorAt : Nat
  /-- InverterTemperature `inverter_temperature`, 8 bits (R58) -/
  inverterAt : Nat
  /-- what a byte (and the bits of a byte) that no field owns holds on encode (R63) -/
  filler : Byte
  deriving DecidableEq, Repr

end Sys2Proof.Config
end

