-- ==== Sys2Proof/Syntax.lean ====
section
/-!
DEFINITION. The syntax of the block: the closed sets of names the operands range over, the instructions (one
constructor per row of spec/opcode_table.json) and the words that carry them. Operands are in the order of
30_encoding.md R47's field list.
-/

namespace Sys2Proof

/-- The five message variants (R51, R53, R80), in the order of the selector. -/
inductive Variant where
  | torqueRequest
  | vcmKeepAlive1
  | vcmKeepAlive2
  | inverterStatus
  | inverterTemperature
  deriving DecidableEq, Repr

/-- The five Timeout slots by role (R13): `T_FREE`, `T_MAIN`, `T_THR`, `T_FRESH`, `T_ESC`. -/
inductive Slot where
  | free
  | main
  | thr
  | fresh
  | esc
  deriving DecidableEq, Repr

/-- The two maps (R52): selector bit 0 is `MAP[1]`, selector bit 1 is `MAP[2]`. -/
inductive MapSel where
  | map1
  | map2
  deriving DecidableEq, Repr

/-- The instructions: the 18 operations of R50, then the five CAN frame rows (R54 to R58). A slot or variant
selector is kept as its three bits: the undefined values 5 to 7 are operands that the operation answers with
IllegalOp (R51, R52, R61). -/
inductive Instr where
  /-- CRC.TBL p, i (R73) -/
  | crcTbl (p i : Byte)
  /-- CRC.SUM p, bytes (R74); `n` is the length of the list -/
  | crcSum (p : Byte) (bytes : List Byte)
  /-- CAN.ENC v, torque, counter (R81) -/
  | canEnc (v : BitVec 3) (torque : I16) (counter : Byte)
  /-- CAN.DEC id, has_data, len, bytes (R86) -/
  | canDec (id : CanId) (hasData : Bool) (len : BitVec 4) (bytes : List Byte)
  /-- MAP.NEW m, a, b (R100) -/
  | mapNew (m : MapSel) (a b : Raw)
  /-- MAP.MAP m, x (R102) -/
  | mapMap (m : MapSel) (x : Raw)
  /-- THR.NEW a1, b1, a2, b2, tol (R104) -/
  | thrNew (a1 b1 a2 b2 : Raw) (tol : Pos)
  /-- THR.POS s1, s2 (R108) -/
  | thrPos (s1 s2 : Raw)
  /-- TMO.NEW t, val (R116) -/
  | tmoNew (t : BitVec 3) (val : Tick)
  /-- TMO.TICK t (R117) -/
  | tmoTick (t : BitVec 3)
  /-- TMO.RESET t (R118) -/
  | tmoReset (t : BitVec 3)
  /-- TMON.CHECK s1, s2 (R127) -/
  | tmonCheck (s1 s2 : Raw)
  /-- MMON.TICK (R129) -/
  | mmonTick
  /-- MMON.PING (R130) -/
  | mmonPing
  /-- MMON.PONG val (R131) -/
  | mmonPong (val : Ping)
  /-- QMON.TICK (R133) -/
  | qmonTick
  /-- QMON.FRAME v, torque, pos (R134) -/
  | qmonFrame (v : BitVec 3) (torque : I16) (pos : Pos)
  /-- OUT.GET (R142) -/
  | outGet
  /-- FRAME.TorqueRequest: a raw frame with identifier 0x14D (R54) -/
  | frameTorqueRequest (hasData : Bool) (len : BitVec 4) (bytes : List Byte)
  /-- FRAME.VcmKeepAlive1: a raw frame with identifier 0x11A (R55) -/
  | frameVcmKeepAlive1 (hasData : Bool) (len : BitVec 4) (bytes : List Byte)
  /-- FRAME.VcmKeepAlive2: a raw frame with identifier 0x50B (R56) -/
  | frameVcmKeepAlive2 (hasData : Bool) (len : BitVec 4) (bytes : List Byte)
  /-- FRAME.InverterStatus: a raw frame with identifier 0x1DA (R57) -/
  | frameInverterStatus (hasData : Bool) (len : BitVec 4) (bytes : List Byte)
  /-- FRAME.InverterTemperature: a raw frame with identifier 0x55A (R58) -/
  | frameInverterTemperature (hasData : Bool) (len : BitVec 4) (bytes : List Byte)
  deriving DecidableEq, Repr

/-- What the host presents: a command word (R46), or a raw frame in the table's CAN_ID space (log 4). -/
inductive InputWord where
  | cmd (w : CmdWord)
  | frame (w : FrameWord)
  deriving DecidableEq, Repr

end Sys2Proof
end

