-- ==== Sys2Proof/Machine/State.lean ====
section
/-!
DEFINITION. The state of the block (10_state.md R10), its ports, what an operation answers, and the reset state.
-/

namespace Sys2Proof.Machine

/-- The error kinds (R49, R151): an error is a value, the status of a response. IllegalOp is the spec's own
addition for an undefined command (R61). -/
inductive ErrorKind where
  /-- code 1, CAN.DEC: the length is not the variant's (R89) -/
  | badDlc
  /-- code 2, CAN.DEC: the CRC byte is not the checksum of the others (R90) -/
  | badCrc
  /-- code 3, CAN.DEC: no payload (R88) -/
  | noData
  /-- code 4, CAN.ENC: the variant is receive-only (R85) -/
  | receiveOnly
  /-- code 5, CAN.DEC: no variant has the identifier (R87) -/
  | unknownFrame
  /-- code 6, THR.POS and TMON.CHECK: a sensor outside its map (R105) -/
  | sensorOutOfRange
  /-- code 7, THR.POS and TMON.CHECK: the mapped values differ by more than TOL (R106) -/
  | sensorMismatch
  /-- code 8, TMO.TICK: the counter was 0 (R117) -/
  | elapsed
  /-- code 9, QMON.TICK and QMON.FRAME (R133, R134) -/
  | torque
  /-- code 10, MMON.TICK (R129) -/
  | main
  /-- code 11: an undefined opcode or selector (R61, R158) -/
  | illegalOp
  deriving DecidableEq, Repr

/-- The two errors of the comparator (R105, R106), the only kinds FLT_THR holds (R16). -/
inductive ThrottleError where
  | sensorOutOfRange
  | sensorMismatch
  deriving DecidableEq, Repr

/-- A message: a value of the closed sum type of R80. -/
inductive Message where
  | torqueRequest (torque : I16) (counter : BitVec 2)
  | vcmKeepAlive1 (counter : Byte)
  | vcmKeepAlive2
  | inverterStatus (millivolt : BitVec 32) (current rpm : I16) (error : Byte)
  | inverterTemperature (motor inverter : Byte)
  deriving DecidableEq, Repr

/-- The named results of the operations that succeed (R48's table). -/
inductive Result where
  /-- MAP.NEW and THR.NEW: no result -/
  | done
  /-- CRC.TBL: the table entry -/
  | entry (value : Byte)
  /-- CRC.SUM: the checksum -/
  | crc (value : Byte)
  /-- CAN.ENC: a raw frame and the variant it carries -/
  | frame (variant : Variant) (id : CanId) (payload : List Byte)
  /-- CAN.DEC: a message -/
  | message (m : Message)
  /-- MAP.MAP: the mapped value, `none` when `valid = 0` -/
  | mapped (value : Option Pos)
  /-- THR.POS: the fused position -/
  | position (p : Pos)
  /-- TMO.NEW, TMO.TICK, TMO.RESET, MMON.TICK, QMON.TICK: the slot's counter after the operation -/
  | counter (cnt : Tick)
  /-- TMON.CHECK: the position and whether a bad reading was masked -/
  | checked (p : Pos) (masked : Bool)
  /-- MMON.PING: the new ping counter -/
  | ping (value : Ping)
  /-- MMON.PONG: whether the pong matched -/
  | pong (matched : Bool)
  /-- QMON.FRAME: whether an implausible request was masked -/
  | sampled (masked : Bool)
  /-- OUT.GET: the state tag, the outgoing position, and which fault is reported -/
  | output (faulted : Bool) (positionOut : Pos) (src : BitVec 2) (kind : BitVec 4)
  deriving DecidableEq, Repr

/-- The response to an operation (R6, R45): a result, or an error with nothing beside it (R48, R96). -/
inductive Response where
  | ok (r : Result)
  | error (e : ErrorKind)
  deriving DecidableEq, Repr

/-- ThrottleSensorMap: `MAP[m].MIN`, `MAP[m].MAX` (R11). -/
structure SensorMap where
  /-- `MAP[m].MIN`, millivolts -/
  min : Raw
  /-- `MAP[m].MAX`, millivolts -/
  max : Raw
  deriving DecidableEq, Repr

/-- The two maps, `MAP[1]` and `MAP[2]` (R10). -/
structure MapFile where
  /-- `MAP[1]` -/
  map1 : SensorMap
  /-- `MAP[2]` -/
  map2 : SensorMap
  deriving DecidableEq, Repr

/-- A Timeout: `TMO[t].RV`, `TMO[t].CNT` (R13). -/
structure Timeout where
  /-- `TMO[t].RV`, the reset value -/
  rv : Tick
  /-- `TMO[t].CNT`, the counter -/
  cnt : Tick
  deriving DecidableEq, Repr

/-- The five Timeouts `TMO[0..4]` under the names of their roles (R13). -/
structure TimeoutFile where
  /-- `TMO[0]`, `T_FREE` -/
  free : Timeout
  /-- `TMO[1]`, `T_MAIN` -/
  main : Timeout
  /-- `TMO[2]`, `T_THR` -/
  thr : Timeout
  /-- `TMO[3]`, `T_FRESH` -/
  fresh : Timeout
  /-- `TMO[4]`, `T_ESC` -/
  esc : Timeout
  deriving DecidableEq, Repr

/-- The fault flags (R16). -/
structure FaultFlags where
  /-- `FLT_THR.V` -/
  thrV : Bool
  /-- `FLT_THR.K`, the status code of the throttle error held -/
  thrK : BitVec 4
  /-- `FLT_TQ.V` -/
  tqV : Bool
  /-- `FLT_MAIN.V` -/
  mainV : Bool
  deriving DecidableEq, Repr

/-- What the host may do to the block (R181): assert reset, or present a word. -/
inductive HostEvent where
  | reset
  | present (w : InputWord)
  deriving DecidableEq, Repr

/-- The state: the registers of R10, then the two ports. -/
structure State where
  /-- `MAP[1..2]` (R11) -/
  maps : MapFile
  /-- `TOL` (R12) -/
  tol : Pos
  /-- `TMO[0..4]` (R13) -/
  tmo : TimeoutFile
  /-- `PING` (R14) -/
  ping : Ping
  /-- `POS` (R15) -/
  pos : Pos
  /-- `FLT_THR`, `FLT_TQ`, `FLT_MAIN` (R16) -/
  flt : FaultFlags
  /-- the response port: the response of the last operation, `none` before the first one after reset. The
  model's own field, not a register (R10, R18). DESIGN CHOICE (log 3) -/
  response : Option Response
  /-- the host's events still to come, the next one first: an input of the model (R17, R181). The model's own
  field. DESIGN CHOICE (log 1) -/
  input : List HostEvent
  deriving DecidableEq, Repr

/-- The reasons a step can stop with a fault: none. No operation traps, halts or stops the block (R150), so no
definition raises a fault; a closed type without constructors is safe, since nothing can be proved from a fault
that cannot happen (log 19). -/
inductive Fault where
  deriving DecidableEq, Repr

/-- The reasons a step can refuse. -/
inductive Refusal where
  /-- an instruction of the table that has no meaning yet, by its mnemonic; raised only by an arm of `exec`
  (none does: every instruction has its meaning). Safe: the model stops where the hardware goes on -/
  | notModelled (mnemonic : String)
  deriving DecidableEq, Repr

/-- A Timeout that holds 0 and 0: `Elapsed` (R24, R120). -/
def Timeout.zero : Timeout := ⟨0#32, 0#32⟩

/-- A map that holds 0 and 0: degenerate (R24, R103). -/
def SensorMap.zero : SensorMap := ⟨0#32, 0#32⟩

/-- The block right after reset: every register holds 0 (R24, R170); no response yet, no event to come. -/
def State.reset : State where
  maps := ⟨SensorMap.zero, SensorMap.zero⟩
  tol := 0#16
  tmo := ⟨Timeout.zero, Timeout.zero, Timeout.zero, Timeout.zero, Timeout.zero⟩
  ping := 0#32
  pos := 0#16
  flt := ⟨false, 0#4, false, false⟩
  response := none
  input := []

end Sys2Proof.Machine
end

