-- ==== Sys2Proof/Machine/Ops.lean ====
section
/-!
DEFINITION. The named operations over the registers and the two address spaces: one definition for each
primitive of 00_scope.md R8 and 43_timeout.md R122, and the one way an operation ends, with a result or with
an error.
-/

namespace Sys2Proof.Machine

/-! ### The registers -/

/-- `MAP[m]` (R11). -/
def MapFile.get (f : MapFile) : MapSel → SensorMap
  | .map1 => f.map1
  | .map2 => f.map2

/-- `MAP[m] <- x` (R11). -/
def MapFile.set (f : MapFile) (m : MapSel) (x : SensorMap) : MapFile :=
  match m with
  | .map1 => { f with map1 := x }
  | .map2 => { f with map2 := x }

/-- `TMO[t]` (R13). -/
def TimeoutFile.get (f : TimeoutFile) : Slot → Timeout
  | .free => f.free
  | .main => f.main
  | .thr => f.thr
  | .fresh => f.fresh
  | .esc => f.esc

/-- `TMO[t] <- x` (R13). -/
def TimeoutFile.set (f : TimeoutFile) (t : Slot) (x : Timeout) : TimeoutFile :=
  match t with
  | .free => { f with free := x }
  | .main => { f with main := x }
  | .thr => { f with thr := x }
  | .fresh => { f with fresh := x }
  | .esc => { f with esc := x }

/-- `MAP[m] <- x` in the state. -/
def setMap (m : MapSel) (x : SensorMap) (s : State) : State := { s with maps := s.maps.set m x }

/-- `TOL <- v` (R12). -/
def setTol (v : Pos) (s : State) : State := { s with tol := v }

/-- `TMO[t] <- x` in the state. -/
def setTmo (t : Slot) (x : Timeout) (s : State) : State := { s with tmo := s.tmo.set t x }

/-- `PING <- v` (R14). -/
def setPing (v : Ping) (s : State) : State := { s with ping := v }

/-- `POS <- v` (R15). -/
def setPos (v : Pos) (s : State) : State := { s with pos := v }

/-- The fault flags, written together. -/
def setFlt (f : FaultFlags) (s : State) : State := { s with flt := f }

/-! ### The end of an operation -/

/-- `return (fields)` (R8): the operation ends with status OK and its results. -/
def respond (r : Result) (s : State) : State := { s with response := some (.ok r) }

/-- `raise E` (R8, R155): the operation ends with the error as its status and no result. Nothing is saved, no mode
changes and no control transfer follows; the writes before the raise stand in `s`. This is the block's taking of an
exception; there is no return from one (R156). -/
def raise (e : ErrorKind) (s : State) : State := { s with response := some (.error e) }

/-- An operation whose outcome is a message or an error, and which changes no register. -/
def answer (o : Except ErrorKind Message) (s : State) : State :=
  match o with
  | .ok m => respond (.message m) s
  | .error e => raise e s

/-! ### The Timeout micro-operations -/

/-- `tick` on one Timeout: the decrement, or `none` for Elapsed, with no write (R122). -/
def Timeout.tick (x : Timeout) : Option Timeout :=
  if x.cnt = 0#32 then none else some { x with cnt := x.cnt - 1#32 }

/-- `restart` on one Timeout (R122). -/
def Timeout.restart (x : Timeout) : Timeout := { x with cnt := x.rv }

/-- A Timeout as constructed with reset value `val` (R116). -/
def Timeout.ofReset (val : Tick) : Timeout := ⟨val, val⟩

/-- `tick(t)` (R122): the state after a tick that succeeds, `none` for Elapsed. -/
def tick (t : Slot) (s : State) : Option State := ((s.tmo.get t).tick).map (setTmo t · s)

/-- `restart(t)` (R122). -/
def restart (t : Slot) (s : State) : State := setTmo t (s.tmo.get t).restart s

/-! ### The CRC table space (20_memory.md R31) -/

/-- One shift/XOR step of the division; the tested bit is the one about to be shifted out (R70; 90_conflicts.md C1). -/
def crcShift (p r : Byte) : Byte := if r.msb then (r <<< 1) ^^^ p else r <<< 1

/-- `n` shift/XOR steps from register value `r`. -/
def crcShifts (p : Byte) : Nat → Byte → Byte
  | 0, r => r
  | n + 1, r => crcShifts p n (crcShift p r)

/-- `TblRead(p, i)` (R8, R70): the entry of index `i` in the lookup table of polynomial `p`. -/
def tblRead (p i : Byte) : Byte := crcShifts p 8 i

/-- The fold of R72 from checksum state `init`. -/
def checksumFrom (p init : Byte) (l : List Byte) : Byte := l.foldl (fun s b => tblRead p (s ^^^ b)) init

/-- `checksum(l, p)` (R72). -/
def checksum (l : List Byte) (p : Byte) : Byte := checksumFrom p Config.crcInit l

/-! ### The payload space (20_memory.md R32 to R37) -/

/-- `MemRead(pl, off, 1)` (R8). Every read is at an offset the length check has shown to exist (R32); the 0 of an
offset beyond the payload is never reached from a decoded instruction (log 13). -/
def memRead8 (pl : List Byte) (off : Nat) : Byte := pl.getD off 0#8

/-- `MemRead(pl, off, 2) = pl[off] + 256·pl[off+1]`: little-endian (R8, R33). -/
def memRead16 (pl : List Byte) (off : Nat) : BitVec 16 := memRead8 pl (off + 1) ++ memRead8 pl off

/-- `MemWrite(pl, off, 1, v)` (R8). -/
def memWrite8 (pl : List Byte) (off : Nat) (v : Byte) : List Byte := pl.set off v

/-- `MemWrite(pl, off, 2, v)`: `v[7:0]` at `off`, `v[15:8]` above it (R8, R33). -/
def memWrite16 (pl : List Byte) (off : Nat) (v : BitVec 16) : List Byte :=
  (pl.set off (v.extractLsb' 0 8)).set (off + 1) (v.extractLsb' 8 8)

end Sys2Proof.Machine
end

