-- ==== Sys2Proof/Machine/Operands.lean ====
section
/-!
DEFINITION. The operand forms: selectors, CAN identifiers, lengths and payload layouts, the calibration map and
the comparator.
-/

namespace Sys2Proof.Machine

/-! ### Selectors -/

/-- The Timeout slot selector `t`: 5, 6 and 7 are undefined (R52). -/
def slotOf (t : BitVec 3) : Option Slot :=
  match t.toNat with
  | 0 => some .free
  | 1 => some .main
  | 2 => some .thr
  | 3 => some .fresh
  | 4 => some .esc
  | _ => none

/-- The variant selector `v`: 5, 6 and 7 are no variant (R51). -/
def variantOfSel (v : BitVec 3) : Option Variant :=
  match v.toNat with
  | 0 => some .torqueRequest
  | 1 => some .vcmKeepAlive1
  | 2 => some .vcmKeepAlive2
  | 3 => some .inverterStatus
  | 4 => some .inverterTemperature
  | _ => none

/-- The selector of a variant, its number as a result (R51). -/
def variantSel : Variant → BitVec 3
  | .torqueRequest => 0#3
  | .vcmKeepAlive1 => 1#3
  | .vcmKeepAlive2 => 2#3
  | .inverterStatus => 3#3
  | .inverterTemperature => 4#3

/-- The arbitration identifier of a variant (R53). -/
def variantId : Variant → CanId
  | .torqueRequest => 0x14D#11
  | .vcmKeepAlive1 => 0x11A#11
  | .vcmKeepAlive2 => 0x50B#11
  | .inverterStatus => 0x1DA#11
  | .inverterTemperature => 0x55A#11

/-- `variant_of(id)` (R87). -/
def variantOf (id : CanId) : Option Variant :=
  match id.toNat with
  | 0x14D => some .torqueRequest
  | 0x11A => some .vcmKeepAlive1
  | 0x50B => some .vcmKeepAlive2
  | 0x1DA => some .inverterStatus
  | 0x55A => some .inverterTemperature
  | _ => none

/-! ### Status codes -/

/-- The status code of an error kind (R49). -/
def ErrorKind.code : ErrorKind → BitVec 4
  | .badDlc => 1#4
  | .badCrc => 2#4
  | .noData => 3#4
  | .receiveOnly => 4#4
  | .unknownFrame => 5#4
  | .sensorOutOfRange => 6#4
  | .sensorMismatch => 7#4
  | .elapsed => 8#4
  | .torque => 9#4
  | .main => 10#4
  | .illegalOp => 11#4

/-- The error kind of a throttle error: a wrapped throttle fault has the throttle kind's own code (R126). -/
def ThrottleError.kind : ThrottleError → ErrorKind
  | .sensorOutOfRange => .sensorOutOfRange
  | .sensorMismatch => .sensorMismatch

/-- The status of a response: `none` is OK (R49). -/
def Response.status : Response → Option ErrorKind
  | .ok _ => none
  | .error e => some e

/-! ### Payloads -/

/-- The default `LAYOUT` of R54 to R58: fields packed from byte 0 in the order of the table, filler 0 (D7, log 9). -/
def defaultLayout : Config.Layout where
  torqueAt := 0
  torqueCounterAt := 2
  keepAliveCounterAt := 0
  voltageAt := 0
  currentAt := 2
  rpmAt := 4
  errorAt := 6
  motorAt := 0
  inverterAt := 1
  filler := 0x00#8

/-- Whether the last byte of a variant's payload is a CRC (R53, R90). -/
def crcBearing : Variant → Bool
  | .torqueRequest => true
  | .vcmKeepAlive1 => true
  | .vcmKeepAlive2 => false
  | .inverterStatus => false
  | .inverterTemperature => false

/-- `length_ok(V, len)` (R89): exact but for InverterTemperature, where it is a minimum (90_conflicts.md C7). -/
def lengthOk (v : Variant) (len : BitVec 4) : Bool :=
  match v with
  | .torqueRequest => len.toNat == 8
  | .vcmKeepAlive1 => len.toNat == 8
  | .vcmKeepAlive2 => len.toNat == 7
  | .inverterStatus => len.toNat == 7
  | .inverterTemperature => decide (2 ≤ len.toNat) && decide (len.toNat ≤ 8)

/-- A payload of `n` bytes that no field owns. -/
def blankPayload (L : Config.Layout) (n : Nat) : List Byte := List.replicate n L.filler

/-- The payload with its CRC byte after it: the checksum of all bytes before it, polynomial 0x85 (R60, R99). -/
def sealPayload (body : List Byte) : List Byte := body ++ [checksum body Config.evPoly]

/-- Whether the CRC byte (offset 7) is the checksum of bytes 0 to 6 (R90). -/
def crcOk (bytes : List Byte) : Bool := checksum (bytes.take 7) Config.evPoly == memRead8 bytes 7

/-- The byte that holds the TorqueRequest counter: bits 7:6 the counter, bits 5:0 filler (R34, R54). -/
def counterByte (L : Config.Layout) (counter : BitVec 2) : Byte :=
  (counter.setWidth 8 <<< Config.ctrShift) ||| (L.filler &&& 0x3F#8)

/-- The payload of a TorqueRequest (R82). -/
def torqueRequestPayload (L : Config.Layout) (torque : I16) (counter : BitVec 2) : List Byte :=
  sealPayload
    (memWrite8 (memWrite16 (blankPayload L 7) L.torqueAt torque) L.torqueCounterAt (counterByte L counter))

/-- The payload of a VcmKeepAlive1 (R83). -/
def vcmKeepAlive1Payload (L : Config.Layout) (counter : Byte) : List Byte :=
  sealPayload (memWrite8 (blankPayload L 7) L.keepAliveCounterAt counter)

/-- The payload of a VcmKeepAlive2 (R84). -/
def vcmKeepAlive2Payload (L : Config.Layout) : List Byte := blankPayload L 7

/-- `millivolt` from the raw voltage field (R59, R94): at most 32 767 500, so 32 bits hold it. -/
def millivoltOf (raw : BitVec 16) : BitVec 32 := raw.setWidth 32 * BitVec.ofNat 32 Config.mvScale

/-- The fields of a payload that has passed every check (R91 to R95); filler is not examined (R63). -/
def extract (L : Config.Layout) (v : Variant) (bytes : List Byte) : Message :=
  match v with
  | .torqueRequest =>
      .torqueRequest (memRead16 bytes L.torqueAt)
        ((memRead8 bytes L.torqueCounterAt >>> Config.ctrShift).setWidth 2)
  | .vcmKeepAlive1 => .vcmKeepAlive1 (memRead8 bytes L.keepAliveCounterAt)
  | .vcmKeepAlive2 => .vcmKeepAlive2
  | .inverterStatus =>
      .inverterStatus (millivoltOf (memRead16 bytes L.voltageAt)) (memRead16 bytes L.currentAt)
        (memRead16 bytes L.rpmAt) (memRead8 bytes L.errorAt)
  | .inverterTemperature => .inverterTemperature (memRead8 bytes L.motorAt) (memRead8 bytes L.inverterAt)

/-- Steps 2 to 5 of CAN.DEC, the variant being known: presence, length, CRC, extraction, in that order, the first
that fails ending the operation (R86, R88 to R90, R96, R153). -/
def decodePayload (L : Config.Layout) (v : Variant) (hasData : Bool) (len : BitVec 4) (bytes : List Byte) :
    Except ErrorKind Message :=
  if !hasData then .error .noData
  else if !lengthOk v len then .error .badDlc
  else if crcBearing v && !crcOk bytes then .error .badCrc
  else .ok (extract L v bytes)

/-- CAN.DEC's decoding of a raw frame: the identifier first, then the payload (R86, R87). -/
def decodeRawFrame (L : Config.Layout) (id : CanId) (hasData : Bool) (len : BitVec 4) (bytes : List Byte) :
    Except ErrorKind Message :=
  match variantOf id with
  | none => .error .unknownFrame
  | some v => decodePayload L v hasData len bytes

/-! ### The calibrator and the comparator -/

/-- A map as constructed from two bounds in either order (R100). -/
def SensorMap.ofBounds (a b : Raw) : SensorMap :=
  if a.toNat ≤ b.toNat then ⟨a, b⟩ else ⟨b, a⟩

/-- `map(lo, hi, x)` (R101, R103): exact arithmetic on naturals, floor division (R109). With lo > hi, which no
reachable state holds, every x is outside (log 12). -/
def SensorMap.map (m : SensorMap) (x : Raw) : Option Pos :=
  if m.min = m.max then none
  else if x.toNat < m.min.toNat ∨ m.max.toNat < x.toNat then none
  else some (BitVec.ofNat 16
    ((x.toNat - m.min.toNat) * Config.posMax / (m.max.toNat - m.min.toNat)))

/-- `|p1 − p2|` (R106). -/
def absDiff (p1 p2 : Pos) : Nat := (p1.toNat - p2.toNat) + (p2.toNat - p1.toNat)

/-- The comparator on two mapped values: the tolerance test and the mean (R106, R107). -/
def fuse (tol p1 p2 : Pos) : Except ThrottleError Pos :=
  if tol.toNat < absDiff p1 p2 then .error .sensorMismatch
  else .ok (BitVec.ofNat 16 ((p1.toNat + p2.toNat) / 2))

/-- `position(s1, s2)` (R105 to R107): range first, then tolerance, then the mean. -/
def fusedPosition (s : State) (s1 s2 : Raw) : Except ThrottleError Pos :=
  match s.maps.map1.map s1, s.maps.map2.map s2 with
  | some p1, some p2 => fuse s.tol p1 p2
  | _, _ => .error .sensorOutOfRange

/-! ### Named instances of the plausibility predicate -/

/-- `PLAUS_TRUE` (R135): the reference code's present behaviour. -/
def plausTrue (_ : Pos) (_ : I16) : Bool := true

/-- `PLAUS_LIN(k, tol)` (R135): a tolerance check, offered as an example; the arithmetic in unbounded integers. -/
def plausLin (k : BitVec 15) (tol : BitVec 16) (pos : Pos) (torque : I16) : Bool :=
  decide ((torque.toInt - ((pos.toNat * k.toNat / 65535 : Nat) : Int)).natAbs ≤ tol.toNat)

end Sys2Proof.Machine
end

