-- ==== Sys2Proof/Machine/Codec.lean ====
section
/-!
DEFINITION. Unit U1, the CAN frame codec (41_can_codec.md): CAN.ENC, CAN.DEC, and the five frame rows of the
opcode table. No register is read or written (R20).
-/

namespace Sys2Proof.Machine

/-- CAN.ENC v, torque, counter (R81): TorqueRequest by R82 (the counter is its two low bits), VcmKeepAlive1 by
R83, VcmKeepAlive2 by R84, the receive-only variants by R85, an undefined selector IllegalOp (R61). -/
def execCanEnc (v : BitVec 3) (torque : I16) (counter : Byte) (s : State) : Host.Outcome State Fault Refusal :=
  .next <|
    match variantOfSel v with
    | some .torqueRequest =>
        respond (.frame .torqueRequest (variantId .torqueRequest)
          (torqueRequestPayload defaultLayout torque (counter.setWidth 2))) s
    | some .vcmKeepAlive1 =>
        respond (.frame .vcmKeepAlive1 (variantId .vcmKeepAlive1) (vcmKeepAlive1Payload defaultLayout counter)) s
    | some .vcmKeepAlive2 =>
        respond (.frame .vcmKeepAlive2 (variantId .vcmKeepAlive2) (vcmKeepAlive2Payload defaultLayout)) s
    | some .inverterStatus => raise .receiveOnly s
    | some .inverterTemperature => raise .receiveOnly s
    | none => raise .illegalOp s

/-- CAN.DEC id, has_data, len, bytes (R86 to R95). -/
def execCanDec (id : CanId) (hasData : Bool) (len : BitVec 4) (bytes : List Byte) (s : State) :
    Host.Outcome State Fault Refusal :=
  .next (answer (decodeRawFrame defaultLayout id hasData len bytes) s)

/-- A raw frame with identifier 0x14D (R54, R86, R91): what CAN.DEC answers for it (log 4). -/
def execFrameTorqueRequest (hasData : Bool) (len : BitVec 4) (bytes : List Byte) (s : State) :
    Host.Outcome State Fault Refusal :=
  .next (answer (decodePayload defaultLayout .torqueRequest hasData len bytes) s)

/-- A raw frame with identifier 0x11A (R55, R86, R92): what CAN.DEC answers for it (log 4). -/
def execFrameVcmKeepAlive1 (hasData : Bool) (len : BitVec 4) (bytes : List Byte) (s : State) :
    Host.Outcome State Fault Refusal :=
  .next (answer (decodePayload defaultLayout .vcmKeepAlive1 hasData len bytes) s)

/-- A raw frame with identifier 0x50B (R56, R86, R93): what CAN.DEC answers for it (log 4). -/
def execFrameVcmKeepAlive2 (hasData : Bool) (len : BitVec 4) (bytes : List Byte) (s : State) :
    Host.Outcome State Fault Refusal :=
  .next (answer (decodePayload defaultLayout .vcmKeepAlive2 hasData len bytes) s)

/-- A raw frame with identifier 0x1DA (R57, R86, R94): what CAN.DEC answers for it (log 4). -/
def execFrameInverterStatus (hasData : Bool) (len : BitVec 4) (bytes : List Byte) (s : State) :
    Host.Outcome State Fault Refusal :=
  .next (answer (decodePayload defaultLayout .inverterStatus hasData len bytes) s)

/-- A raw frame with identifier 0x55A (R58, R86, R95): what CAN.DEC answers for it (log 4). -/
def execFrameInverterTemperature (hasData : Bool) (len : BitVec 4) (bytes : List Byte) (s : State) :
    Host.Outcome State Fault Refusal :=
  .next (answer (decodePayload defaultLayout .inverterTemperature hasData len bytes) s)

end Sys2Proof.Machine
end

