-- ==== Sys2Proof/Machine/Crc.lean ====
section
/-!
DEFINITION. Unit U0, the CRC-8 checker (40_crc8.md): CRC.TBL and CRC.SUM.
-/

namespace Sys2Proof.Machine

/-- CRC.TBL p, i (R73): `return (D = TblRead(p, i))`. No register is read or written. -/
def execCrcTbl (p i : Byte) (s : State) : Host.Outcome State Fault Refusal :=
  .next (respond (.entry (tblRead p i)) s)

/-- CRC.SUM p, bytes (R74): `return (D = checksum(bytes, p))`. No register is read or written. -/
def execCrcSum (p : Byte) (bytes : List Byte) (s : State) : Host.Outcome State Fault Refusal :=
  .next (respond (.crc (checksum bytes p)) s)

end Sys2Proof.Machine
end

