-- ==== Sys2Proof/Machine/Flags.lean ====
section
/-!
DEFINITION. The fault flags: the one rule that updates them (45_safe_output.md R141), what OUT.GET computes from
them (R142) and the level output (R144). The block has no arithmetic flags (R16).
-/

namespace Sys2Proof.Machine

/-- The outcomes of the monitor operations, as R141's table lists them. -/
inductive MonitorOutcome where
  /-- TMON.CHECK, OK, masked = 0 -/
  | checkGood
  /-- TMON.CHECK, OK, masked = 1 -/
  | checkMasked
  /-- TMON.CHECK, error e -/
  | checkError (e : ThrottleError)
  /-- MMON.TICK, OK -/
  | mainTickOk
  /-- MMON.TICK, Main -/
  | mainTickFault
  /-- MMON.PING, OK -/
  | pingSent
  /-- MMON.PONG, OK, match = 1 -/
  | pongMatched
  /-- MMON.PONG, OK, match = 0 -/
  | pongUnmatched
  /-- QMON.TICK, OK -/
  | torqueTickOk
  /-- QMON.TICK, Torque -/
  | torqueTickFault
  /-- QMON.FRAME, OK, masked = 0 -/
  | frameGood
  /-- QMON.FRAME, OK, masked = 1 -/
  | frameMasked
  /-- QMON.FRAME, Torque -/
  | frameFault
  /-- QMON.FRAME, IllegalOp -/
  | frameIllegal
  deriving DecidableEq, Repr

/-- The flags after a monitor operation with the given outcome (R141), row by row. -/
def flagsAfter (P : Config.Params) (o : MonitorOutcome) (f : FaultFlags) : FaultFlags :=
  match o with
  | .checkGood => { f with thrV := false, thrK := 0#4 }
  | .checkMasked => f
  | .checkError e => { f with thrV := true, thrK := e.kind.code }
  | .mainTickOk => f
  | .mainTickFault => { f with mainV := true }
  | .pingSent => { f with mainV := f.mainV && (P.mainFaultSticky || !P.pingSendResets) }
  | .pongMatched => { f with mainV := f.mainV && P.mainFaultSticky }
  | .pongUnmatched => f
  | .torqueTickOk => f
  | .torqueTickFault => { f with tqV := true }
  | .frameGood => { f with tqV := false }
  | .frameMasked => f
  | .frameFault => { f with tqV := true }
  | .frameIllegal => f

/-- The flag update, the last step of every monitor operation (R141). -/
def flagUpdate (P : Config.Params) (o : MonitorOutcome) (s : State) : State :=
  setFlt (flagsAfter P o s.flt) s

/-- Whether any fault flag is set (R142). -/
def FaultFlags.any (f : FaultFlags) : Bool := f.mainV || f.thrV || f.tqV

/-- The level output `fault` (R144). -/
def State.fault (s : State) : Bool := s.flt.any

/-- Which fault OUT.GET reports, `(src, kind)`: Main, then Throttle, then Torque (R142, R153). -/
def faultSource (f : FaultFlags) : BitVec 2 × BitVec 4 :=
  if f.mainV then (3#2, ErrorKind.main.code)
  else if f.thrV then (1#2, f.thrK)
  else if f.tqV then (2#2, ErrorKind.torque.code)
  else (0#2, 0#4)

/-- The position handed onward: 0 while any flag is set (R142). -/
def positionOut (s : State) : Pos := if s.fault then 0#16 else s.pos

end Sys2Proof.Machine
end

