-- ==== Sys2Proof/Machine/Monitors.lean ====
section
/-!
DEFINITION. Unit U4, the three monitors (44_monitors.md): TMON.CHECK, MMON.TICK, MMON.PING, MMON.PONG, QMON.TICK,
QMON.FRAME. Every one ends with the flag update of 45_safe_output.md R141. The operations that depend on an open
parameter take the parameters as an argument (R21); `exec` runs them at `Config.params`.
-/

namespace Sys2Proof.Machine

/-- A tick of a monitor's time base that either succeeds and returns the slot's counter or raises the monitor's own
fault: the shape of MMON.TICK and QMON.TICK (R129, R133), with the flag update of each outcome (R141). -/
def monitorTick (P : Config.Params) (t : Slot) (e : ErrorKind) (good bad : MonitorOutcome) (s : State) : State :=
  match tick t s with
  | some s' => respond (.counter (s'.tmo.get t).cnt) (flagUpdate P good s')
  | none => raise e (flagUpdate P bad s)

/-- TMON.CHECK (R127): a good reading restarts the grace Timeout and returns the position; a bad one ticks it,
and is masked as position 0 while the tick succeeds and escalated when it fails. The error escalated is this
reading's. -/
def checkThrottle (P : Config.Params) (s1 s2 : Raw) (s : State) : State :=
  match fusedPosition s s1 s2 with
  | .ok p => respond (.checked p false) (flagUpdate P .checkGood (setPos p (restart .thr s)))
  | .error e =>
    match tick .thr s with
    | some s' => respond (.checked 0#16 true) (flagUpdate P .checkMasked (setPos 0#16 s'))
    | none => raise e.kind (flagUpdate P (.checkError e) (setPos 0#16 s))

/-- MMON.PING (R130): the new ping counter is returned; the liveness Timeout is restarted when `PING_SEND_RESETS`. -/
def sendPing (P : Config.Params) (s : State) : State :=
  let counted := setPing (s.ping + 1#32) s
  let restarted := if P.pingSendResets then restart .main counted else counted
  respond (.ping (s.ping + 1#32)) (flagUpdate P .pingSent restarted)

/-- MMON.PONG val (R131): a pong that equals the ping counter restarts the liveness Timeout; another changes nothing. -/
def receivePong (P : Config.Params) (val : Ping) (s : State) : State :=
  if val = s.ping then respond (.pong true) (flagUpdate P .pongMatched (restart .main s))
  else respond (.pong false) (flagUpdate P .pongUnmatched s)

/-- QMON.FRAME v, torque, pos (R134): an undefined selector is IllegalOp, another variant is Torque at once; a
TorqueRequest restarts freshness, and the plausibility of its torque is debounced through the escalation Timeout. -/
def torqueFrame (P : Config.Params) (v : BitVec 3) (torque : I16) (pos : Pos) (s : State) : State :=
  match variantOfSel v with
  | none => raise .illegalOp (flagUpdate P .frameIllegal s)
  | some .torqueRequest =>
    let observed := restart .fresh s
    if P.plaus pos torque then respond (.sampled false) (flagUpdate P .frameGood (restart .esc observed))
    else
      match tick .esc observed with
      | some s' => respond (.sampled true) (flagUpdate P .frameMasked s')
      | none => raise .torque (flagUpdate P .frameFault observed)
  | some _ => raise .torque (flagUpdate P .frameFault s)

/-- TMON.CHECK s1, s2 (R127). -/
def execTmonCheck (s1 s2 : Raw) (s : State) : Host.Outcome State Fault Refusal :=
  .next (checkThrottle Config.params s1 s2 s)

/-- MMON.TICK (R129): the liveness Timeout, slot 1; Main when it has elapsed. -/
def execMmonTick (s : State) : Host.Outcome State Fault Refusal :=
  .next (monitorTick Config.params .main .main .mainTickOk .mainTickFault s)

/-- MMON.PING (R130). -/
def execMmonPing (s : State) : Host.Outcome State Fault Refusal :=
  .next (sendPing Config.params s)

/-- MMON.PONG val (R131). -/
def execMmonPong (val : Ping) (s : State) : Host.Outcome State Fault Refusal :=
  .next (receivePong Config.params val s)

/-- QMON.TICK (R133): the freshness Timeout, slot 3; Torque when it has elapsed. -/
def execQmonTick (s : State) : Host.Outcome State Fault Refusal :=
  .next (monitorTick Config.params .fresh .torque .torqueTickOk .torqueTickFault s)

/-- QMON.FRAME v, torque, pos (R134). -/
def execQmonFrame (v : BitVec 3) (torque : I16) (pos : Pos) (s : State) : Host.Outcome State Fault Refusal :=
  .next (torqueFrame Config.params v torque pos s)

end Sys2Proof.Machine
end

