-- ==== Sys2Proof/Machine/Output.lean ====
section
/-!
DEFINITION. The safe-output stage (45_safe_output.md): OUT.GET.
-/

namespace Sys2Proof.Machine

/-- OUT.GET (R142): the state tag, the position forced to 0 while any flag is set, and which fault is reported. No
register is written. -/
def execOutGet (s : State) : Host.Outcome State Fault Refusal :=
  .next (respond (.output s.fault (positionOut s) (faultSource s.flt).1 (faultSource s.flt).2) s)

end Sys2Proof.Machine
end

