-- ==== Sys2Proof/Machine/Throttle.lean ====
section
/-!
DEFINITION. Unit U2, the throttle calibrator and comparator (42_throttle.md): MAP.NEW, MAP.MAP, THR.NEW, THR.POS.
-/

namespace Sys2Proof.Machine

/-- MAP.NEW m, a, b (R100): the bounds are stored normalised; their order is not remembered (R110). -/
def execMapNew (m : MapSel) (a b : Raw) (s : State) : Host.Outcome State Fault Refusal :=
  .next (respond .done (setMap m (SensorMap.ofBounds a b) s))

/-- MAP.MAP m, x (R102): a value that is not mapped is a result (`valid = 0`), not an error. -/
def execMapMap (m : MapSel) (x : Raw) (s : State) : Host.Outcome State Fault Refusal :=
  .next (respond (.mapped ((s.maps.get m).map x)) s)

/-- THR.NEW a1, b1, a2, b2, tol (R104). -/
def execThrNew (a1 b1 a2 b2 : Raw) (tol : Pos) (s : State) : Host.Outcome State Fault Refusal :=
  .next (respond .done
    (setTol tol (setMap .map2 (SensorMap.ofBounds a2 b2) (setMap .map1 (SensorMap.ofBounds a1 b1) s))))

/-- THR.POS s1, s2 (R108): no register is written, POS included. -/
def execThrPos (s1 s2 : Raw) (s : State) : Host.Outcome State Fault Refusal :=
  .next <|
    match fusedPosition s s1 s2 with
    | .ok p => respond (.position p) s
    | .error e => raise e.kind s

end Sys2Proof.Machine
end

