-- ==== Sys2Proof/Machine/Timeouts.lean ====
section
/-!
DEFINITION. Unit U3, the Timeout file (43_timeout.md): TMO.NEW, TMO.TICK, TMO.RESET. None of them writes a fault
flag (R141).
-/

namespace Sys2Proof.Machine

/-- TMO.NEW t, val (R116): 0 is accepted and leaves the slot Elapsed (R120). -/
def execTmoNew (t : BitVec 3) (val : Tick) (s : State) : Host.Outcome State Fault Refusal :=
  .next <|
    match slotOf t with
    | none => raise .illegalOp s
    | some slot => respond (.counter val) (setTmo slot (Timeout.ofReset val) s)

/-- TMO.TICK t (R117): the tick that brings the counter to 0 still succeeds. -/
def execTmoTick (t : BitVec 3) (s : State) : Host.Outcome State Fault Refusal :=
  .next <|
    match slotOf t with
    | none => raise .illegalOp s
    | some slot =>
      match tick slot s with
      | some s' => respond (.counter (s'.tmo.get slot).cnt) s'
      | none => raise .elapsed s

/-- TMO.RESET t (R118): never fails on a defined slot. -/
def execTmoReset (t : BitVec 3) (s : State) : Host.Outcome State Fault Refusal :=
  .next <|
    match slotOf t with
    | none => raise .illegalOp s
    | some slot => respond (.counter ((restart slot s).tmo.get slot).cnt) (restart slot s)

end Sys2Proof.Machine
end

