-- ==== Sys2Proof/Machine/Dispatch.lean ====
section
/-!
DEFINITION. What each instruction does: one arm per constructor, one direct call of its meaning.
-/

namespace Sys2Proof.Machine

def exec (i : Instr) (s : State) : Host.Outcome State Fault Refusal :=
  match i with
  | .crcTbl p idx => Sys2Proof.Machine.execCrcTbl p idx s
  | .crcSum p bytes => Sys2Proof.Machine.execCrcSum p bytes s
  | .canEnc v torque counter => Sys2Proof.Machine.execCanEnc v torque counter s
  | .canDec id hasData len bytes => Sys2Proof.Machine.execCanDec id hasData len bytes s
  | .mapNew m a b => Sys2Proof.Machine.execMapNew m a b s
  | .mapMap m x => Sys2Proof.Machine.execMapMap m x s
  | .thrNew a1 b1 a2 b2 tol => Sys2Proof.Machine.execThrNew a1 b1 a2 b2 tol s
  | .thrPos s1 s2 => Sys2Proof.Machine.execThrPos s1 s2 s
  | .tmoNew t val => Sys2Proof.Machine.execTmoNew t val s
  | .tmoTick t => Sys2Proof.Machine.execTmoTick t s
  | .tmoReset t => Sys2Proof.Machine.execTmoReset t s
  | .tmonCheck s1 s2 => Sys2Proof.Machine.execTmonCheck s1 s2 s
  | .mmonTick => Sys2Proof.Machine.execMmonTick s
  | .mmonPing => Sys2Proof.Machine.execMmonPing s
  | .mmonPong val => Sys2Proof.Machine.execMmonPong val s
  | .qmonTick => Sys2Proof.Machine.execQmonTick s
  | .qmonFrame v torque pos => Sys2Proof.Machine.execQmonFrame v torque pos s
  | .outGet => Sys2Proof.Machine.execOutGet s
  | .frameTorqueRequest hasData len bytes => Sys2Proof.Machine.execFrameTorqueRequest hasData len bytes s
  | .frameVcmKeepAlive1 hasData len bytes => Sys2Proof.Machine.execFrameVcmKeepAlive1 hasData len bytes s
  | .frameVcmKeepAlive2 hasData len bytes => Sys2Proof.Machine.execFrameVcmKeepAlive2 hasData len bytes s
  | .frameInverterStatus hasData len bytes => Sys2Proof.Machine.execFrameInverterStatus hasData len bytes s
  | .frameInverterTemperature hasData len bytes => Sys2Proof.Machine.execFrameInverterTemperature hasData len bytes s

end Sys2Proof.Machine
end

