-- ==== Sys2Proof/WellFormed.lean ====
section
/-!
DEFINITION. Which terms of `Instr` a command or frame word can carry (30_encoding.md R47). Every value of a
bit-vector operand can be carried but for the TorqueRequest counter of CAN.ENC; the checks below concern that
counter and the byte lists.
-/

namespace Sys2Proof

/-- A payload operand carries the bytes at k < len, at most eight of them (R47 format D). -/
def payloadWellFormed (len : BitVec 4) (bytes : List Byte) : Bool :=
  bytes.length == min len.toNat Config.payloadMax

/-- The terms that have an encoding (R47). -/
def Instr.wellFormed : Instr → Bool
  | .crcTbl _ _ => true
  | .crcSum _ bytes => decide (bytes.length ≤ Config.crcNMax)
  | .canEnc v _ counter => v != 0#3 || decide (counter.toNat < 4)
  | .canDec _ _ len bytes => payloadWellFormed len bytes
  | .mapNew _ _ _ => true
  | .mapMap _ _ => true
  | .thrNew _ _ _ _ _ => true
  | .thrPos _ _ => true
  | .tmoNew _ _ => true
  | .tmoTick _ => true
  | .tmoReset _ => true
  | .tmonCheck _ _ => true
  | .mmonTick => true
  | .mmonPing => true
  | .mmonPong _ => true
  | .qmonTick => true
  | .qmonFrame _ _ _ => true
  | .outGet => true
  | .frameTorqueRequest _ len bytes => payloadWellFormed len bytes
  | .frameVcmKeepAlive1 _ len bytes => payloadWellFormed len bytes
  | .frameVcmKeepAlive2 _ len bytes => payloadWellFormed len bytes
  | .frameInverterStatus _ len bytes => payloadWellFormed len bytes
  | .frameInverterTemperature _ len bytes => payloadWellFormed len bytes

end Sys2Proof
end

