-- ==== Sys2Proof/Decode.lean ====
section
/-!
DEFINITION. The decoder and the encoder of command words (30_encoding.md R46, R47, R50) and of raw frame words
(R53 to R58, R62). Decoding is total; what it rejects it rejects by name.
-/

namespace Sys2Proof

/-- Why a word is no instruction. -/
inductive DecodeError where
  /-- `CMD[7:0]` is none of R50's 18 opcodes; the block answers IllegalOp (R61, R158) -/
  | illegalOpcode (op : BitVec 8)
  /-- the identifier of a raw frame is none of the five; the codec answers UnknownFrame (R62) -/
  | unknownIdentifier (id : CanId)
  deriving DecidableEq, Repr

/-- `v[lo+n-1 : lo]` (R7). -/
def field {k : Nat} (w : BitVec k) (lo n : Nat) : BitVec n := w.extractLsb' lo n

/-- The first `n` bytes of a number, least significant first: byte k is bits 8k+7 : 8k. -/
def unpackBytes : Nat → Nat → List Byte
  | 0, _ => []
  | n + 1, v => BitVec.ofNat 8 v :: unpackBytes n (v / 256)

/-- The number whose bytes, least significant first, are the list's. -/
def packBytes : List Byte → Nat
  | [] => 0
  | b :: bs => b.toNat + 256 * packBytes bs

/-- The `n` bytes of a word from bit `lo` up: byte k is bits lo+8k+7 : lo+8k (R47). -/
def bytesField {k : Nat} (w : BitVec k) (lo n : Nat) : List Byte := unpackBytes n (w.toNat >>> lo)

/-- One bit of a word as a truth value. -/
def bitField {k : Nat} (w : BitVec k) (lo : Nat) : Bool := field w lo 1 == 1#1

/-- The map selector bit (R52). -/
def mapSelOfBit (b : Bool) : MapSel := if b then .map2 else .map1

/-- The selector bit of a map (R52). -/
def mapSelBit : MapSel → Bool
  | .map1 => false
  | .map2 => true

/-- The opcode field `CMD[7:0]` (R46). -/
def opcodeOf (w : CmdWord) : BitVec 8 := field w 0 8

/-- The counter operand of CAN.ENC: for v = 0 only CMD[33:32] is the counter (R47 format E). -/
def encCounter (w : CmdWord) : Byte :=
  if field w 8 3 = 0#3 then (field w 32 2).setWidth 8 else field w 32 8

/-- The payload length carried by a `len` operand: byte k for k = 0..7 (R47 format D). -/
def carried (len : BitVec 4) : Nat := min len.toNat Config.payloadMax

/-- Decoding a command word by its opcode (R46, R47, R50). -/
def decodeCmd (w : CmdWord) : Except DecodeError Instr :=
  match (opcodeOf w).toNat with
  | 0x00 => .ok (.crcTbl (field w 8 8) (field w 16 8))
  | 0x01 => .ok (.crcSum (field w 8 8) (bytesField w 24 (field w 16 4).toNat))
  | 0x10 => .ok (.canEnc (field w 8 3) (field w 16 16) (encCounter w))
  | 0x11 => .ok (.canDec (field w 8 11) (bitField w 19) (field w 20 4) (bytesField w 24 (carried (field w 20 4))))
  | 0x20 => .ok (.mapNew (mapSelOfBit (bitField w 8)) (field w 16 32) (field w 48 32))
  | 0x21 => .ok (.mapMap (mapSelOfBit (bitField w 8)) (field w 16 32))
  | 0x22 => .ok (.thrNew (field w 16 32) (field w 48 32) (field w 80 32) (field w 112 32) (field w 144 16))
  | 0x23 => .ok (.thrPos (field w 16 32) (field w 48 32))
  | 0x30 => .ok (.tmoNew (field w 8 3) (field w 16 32))
  | 0x31 => .ok (.tmoTick (field w 8 3))
  | 0x32 => .ok (.tmoReset (field w 8 3))
  | 0x40 => .ok (.tmonCheck (field w 16 32) (field w 48 32))
  | 0x41 => .ok .mmonTick
  | 0x42 => .ok .mmonPing
  | 0x43 => .ok (.mmonPong (field w 16 32))
  | 0x44 => .ok .qmonTick
  | 0x45 => .ok (.qmonFrame (field w 8 3) (field w 16 16) (field w 48 16))
  | 0x50 => .ok .outGet
  | _ => .error (.illegalOpcode (opcodeOf w))

/-- Decoding a raw frame word by its identifier (R53, R62). -/
def decodeFrame (w : FrameWord) : Except DecodeError Instr :=
  let hasData := bitField w 11
  let len : BitVec 4 := field w 12 4
  let bytes := bytesField w 16 (carried len)
  match (field w 0 11).toNat with
  | 0x14D => .ok (.frameTorqueRequest hasData len bytes)
  | 0x11A => .ok (.frameVcmKeepAlive1 hasData len bytes)
  | 0x50B => .ok (.frameVcmKeepAlive2 hasData len bytes)
  | 0x1DA => .ok (.frameInverterStatus hasData len bytes)
  | 0x55A => .ok (.frameInverterTemperature hasData len bytes)
  | _ => .error (.unknownIdentifier (field w 0 11))

/-- The decoder: total on every word. -/
def decode : InputWord → Except DecodeError Instr
  | .cmd w => decodeCmd w
  | .frame w => decodeFrame w

/-- The number with each value at its bit position; the fields of one format do not overlap. -/
def assemble : List (Nat × Nat) → Nat
  | [] => 0
  | (lo, v) :: rest => v * 2 ^ lo + assemble rest

/-- A command word from its opcode and its other fields, reserved bits 0 (R46). -/
def cmdWord (op : Nat) (fields : List (Nat × Nat)) : InputWord :=
  .cmd (BitVec.ofNat 160 (assemble ((0, op) :: fields)))

/-- A raw frame word (log 5). -/
def frameWord (id : Nat) (hasData : Bool) (len : BitVec 4) (bytes : List Byte) : InputWord :=
  .frame (BitVec.ofNat 80
    (assemble [(0, id), (11, hasData.toNat), (12, len.toNat), (16, packBytes bytes)]))

/-- The encoder: the word of a well-formed instruction, every reserved bit 0 (R46, R47, R50). -/
def encode : Instr → InputWord
  | .crcTbl p i => cmdWord 0x00 [(8, p.toNat), (16, i.toNat)]
  | .crcSum p bytes => cmdWord 0x01 [(8, p.toNat), (16, bytes.length), (24, packBytes bytes)]
  | .canEnc v torque counter => cmdWord 0x10 [(8, v.toNat), (16, torque.toNat), (32, counter.toNat)]
  | .canDec id hasData len bytes =>
      cmdWord 0x11 [(8, id.toNat), (19, hasData.toNat), (20, len.toNat), (24, packBytes bytes)]
  | .mapNew m a b => cmdWord 0x20 [(8, (mapSelBit m).toNat), (16, a.toNat), (48, b.toNat)]
  | .mapMap m x => cmdWord 0x21 [(8, (mapSelBit m).toNat), (16, x.toNat)]
  | .thrNew a1 b1 a2 b2 tol =>
      cmdWord 0x22 [(16, a1.toNat), (48, b1.toNat), (80, a2.toNat), (112, b2.toNat), (144, tol.toNat)]
  | .thrPos s1 s2 => cmdWord 0x23 [(16, s1.toNat), (48, s2.toNat)]
  | .tmoNew t val => cmdWord 0x30 [(8, t.toNat), (16, val.toNat)]
  | .tmoTick t => cmdWord 0x31 [(8, t.toNat)]
  | .tmoReset t => cmdWord 0x32 [(8, t.toNat)]
  | .tmonCheck s1 s2 => cmdWord 0x40 [(16, s1.toNat), (48, s2.toNat)]
  | .mmonTick => cmdWord 0x41 []
  | .mmonPing => cmdWord 0x42 []
  | .mmonPong val => cmdWord 0x43 [(16, val.toNat)]
  | .qmonTick => cmdWord 0x44 []
  | .qmonFrame v torque pos => cmdWord 0x45 [(8, v.toNat), (16, torque.toNat), (48, pos.toNat)]
  | .outGet => cmdWord 0x50 []
  | .frameTorqueRequest hasData len bytes => frameWord 0x14D hasData len bytes
  | .frameVcmKeepAlive1 hasData len bytes => frameWord 0x11A hasData len bytes
  | .frameVcmKeepAlive2 hasData len bytes => frameWord 0x50B hasData len bytes
  | .frameInverterStatus hasData len bytes => frameWord 0x1DA hasData len bytes
  | .frameInverterTemperature hasData len bytes => frameWord 0x55A hasData len bytes

/-- The word of a table row, given its bits as the table numbers them. The table has two spaces: command rows
on `CMD[7:0]` and frame rows on the 11-bit identifier. A word shorter than a command word whose low 11 bits are
one of the five identifiers is a raw frame; every other word is a command (no identifier's low byte is an
opcode, so no word is an instruction in both readings; log 5). -/
def tableWord (nbits w : Nat) : InputWord :=
  let bits := w % 2 ^ nbits
  if nbits < 160 ∧ (bits % 2048 = 0x14D ∨ bits % 2048 = 0x11A ∨ bits % 2048 = 0x50B ∨ bits % 2048 = 0x1DA
      ∨ bits % 2048 = 0x55A) then
    .frame (BitVec.ofNat 80 bits)
  else
    .cmd (BitVec.ofNat 160 bits)

/-- The instruction the decoder reads from a table row's bits. -/
def decodeTableWord (nbits w : Nat) : Option Instr :=
  match decode (tableWord nbits w) with
  | .ok i => some i
  | .error _ => none

end Sys2Proof
end

