-- ==== Sys2Proof/Machine/Fetch.lean ====
section
/-!
DEFINITION. How the next event reaches the block: the block has no program counter and fetches nothing; the host
presents one event at a time (10_state.md R17, 70_reset_and_hazards.md R181).
-/

namespace Sys2Proof.Machine

/-- What a step finds to do. -/
inductive Fetched where
  /-- no event: the host issues no more commands (R180) -/
  | idle
  /-- the host asserts reset -/
  | reset (rest : List HostEvent)
  /-- the host presents a word; `s` is the state with the event taken -/
  | word (w : InputWord) (s : State)
  deriving DecidableEq, Repr

/-- The next event, taken from the input (R17). -/
def fetch (s : State) : Fetched :=
  match s.input with
  | [] => .idle
  | .reset :: rest => .reset rest
  | .present w :: rest => .word w { s with input := rest }

/-- The state after a reset: every register 0, no response, the host's later events still to come (R170, log 2). -/
def afterReset (rest : List HostEvent) : State := { State.reset with input := rest }

/-- What a rejected word is answered with: IllegalOp for an undefined opcode (R61, R158), UnknownFrame for an
identifier the codec does not know (R62, R87); no register changes (log 16). -/
def rejectWord (e : DecodeError) (s : State) : State :=
  match e with
  | .illegalOpcode _ => raise .illegalOp s
  | .unknownIdentifier _ => raise .unknownFrame s

/-- The state in which the host presents a word next, before everything else it has to come. -/
def presentNext (w : InputWord) (s : State) : State := { s with input := .present w :: s.input }

end Sys2Proof.Machine
end

