-- ==== Sys2Proof/Machine/Step.lean ====
section
/-!
DEFINITION. One step of the machine: one event of the host, taken whole (00_scope.md R6).
-/

namespace Sys2Proof.Machine

/-- One step: with no event to come the block is idle and nothing changes (log 15); a reset event resets it; a word
is decoded and its instruction runs, or it is answered as an undefined command. -/
def step (s : State) : Host.Outcome State Fault Refusal :=
  match fetch s with
  | .idle => .next s
  | .reset rest => .next (afterReset rest)
  | .word w s' =>
    match decode w with
    | .ok i => exec i s'
    | .error e => .next (rejectWord e s')

/-- The state in which the next step runs exactly the instruction with the given bits: the host presents its word
next (log 1, log 5). -/
def State.withFetchWord (s : State) (nbits w : Nat) : State := presentNext (tableWord nbits w) s

end Sys2Proof.Machine
end

