-- ==== Sys2Proof/Machine/Pseudo.lean ====
section
/-!
DEFINITION. The pseudo-instructions (30_encoding.md R66): each expands to commands of R50; none has an opcode.
-/

namespace Sys2Proof.Machine

/-- The selector of a slot (R13, R52). -/
def slotSel : Slot → BitVec 3
  | .free => 0#3
  | .main => 1#3
  | .thr => 2#3
  | .fresh => 3#3
  | .esc => 4#3

/-- `CRC.GEN p`: the 256 entries in order, the source's `generate_lookup` (R66, R73). -/
def crcGen (p : Byte) : List Instr := (List.range 256).map fun i => .crcTbl p (BitVec.ofNat 8 i)

/-- `CRC.STEP p, s, b`: one fold step, the XOR done by the host (R66). -/
def crcStep (p s b : Byte) : List Instr := [.crcTbl p (s ^^^ b)]

/-- `TMON.NEW a1, b1, a2, b2, tol, grace` (R66). -/
def tmonNew (a1 b1 a2 b2 : Raw) (tol : Pos) (grace : Tick) : List Instr :=
  [.thrNew a1 b1 a2 b2 tol, .tmoNew (slotSel .thr) grace]

/-- `MMON.NEW n` (R66). -/
def mmonNew (n : Tick) : List Instr := [.tmoNew (slotSel .main) n]

/-- `QMON.NEW fresh, esc` (R66). -/
def qmonNew (fresh esc : Tick) : List Instr :=
  [.tmoNew (slotSel .fresh) fresh, .tmoNew (slotSel .esc) esc]

end Sys2Proof.Machine
end

