-- ==== Sys2Proof/Machine/Rsp.lean ====
section
/-!
DEFINITION. The packed response word RSP (30_encoding.md R48): a codec beside the structured responses (R45).
-/

namespace Sys2Proof.Machine

/-- The variant a message is a value of. -/
def Message.variant : Message → Variant
  | .torqueRequest _ _ => .torqueRequest
  | .vcmKeepAlive1 _ => .vcmKeepAlive1
  | .vcmKeepAlive2 => .vcmKeepAlive2
  | .inverterStatus _ _ _ _ => .inverterStatus
  | .inverterTemperature _ _ => .inverterTemperature

/-- The data fields of a response: A = RSP[55:24], B = RSP[71:56], C = RSP[87:72], D = RSP[95:88] (R48). -/
structure DataFields where
  /-- RSP[55:24] -/
  a : BitVec 32 := 0#32
  /-- RSP[71:56] -/
  b : BitVec 16 := 0#16
  /-- RSP[87:72] -/
  c : BitVec 16 := 0#16
  /-- RSP[95:88] -/
  d : BitVec 8 := 0#8
  deriving DecidableEq, Repr

/-- Which field of a message goes in which data field (R48's table). -/
def messageFields : Message → DataFields
  | .torqueRequest torque counter => { b := torque, d := counter.setWidth 8 }
  | .vcmKeepAlive1 counter => { d := counter }
  | .vcmKeepAlive2 => {}
  | .inverterStatus millivolt current rpm error => { a := millivolt, b := current, c := rpm, d := error }
  | .inverterTemperature motor inverter => { c := inverter.setWidth 16, d := motor }

/-- Which result goes in which data field (R48's table); a raw frame uses none. -/
def resultFields : Result → DataFields
  | .done => {}
  | .entry value => { d := value }
  | .crc value => { d := value }
  | .frame _ _ _ => {}
  | .message m => messageFields m
  | .mapped value => { b := value.getD 0#16 }
  | .position p => { b := p }
  | .counter cnt => { a := cnt }
  | .checked p _ => { b := p }
  | .ping value => { a := value }
  | .pong _ => {}
  | .sampled _ => {}
  | .output _ p src kind => { b := p, d := 0#2 ++ src ++ kind }

/-- `RSP[4]` (R48). -/
def resultFlag : Result → Bool
  | .mapped value => value.isSome
  | .checked _ masked => masked
  | .pong matched => matched
  | .sampled masked => masked
  | .output faulted _ _ _ => faulted
  | _ => false

/-- `RSP[7:5]`: the variant of CAN.ENC's frame or of CAN.DEC's message, 0 otherwise (R48, R51). -/
def resultVariant : Result → BitVec 3
  | .frame v _ _ => variantSel v
  | .message m => variantSel m.variant
  | _ => 0#3

/-- `RSP[95:8]`: a raw frame as identifier, length and payload bytes, or the four data fields (R48). -/
def resultBody : Result → Nat
  | .frame _ id payload =>
      assemble [(8, id.toNat), (20, payload.length), (24, packBytes payload)]
  | r =>
      let f := resultFields r
      assemble [(24, f.a.toNat), (56, f.b.toNat), (72, f.c.toNat), (88, f.d.toNat)]

/-- The packed response word: when the status is not OK every bit above bit 3 is 0 (R48). -/
def Response.pack : Response → RspWord
  | .ok r =>
      BitVec.ofNat 96
        (assemble [(4, (resultFlag r).toNat), (5, (resultVariant r).toNat)] + resultBody r)
  | .error e => e.code.setWidth 96

/-- The response port as the packed word; all 0 before the first response (log 3). -/
def State.rsp (s : State) : RspWord :=
  match s.response with
  | some r => r.pack
  | none => 0#96

end Sys2Proof.Machine
end

