-- ==== Sys2Proof/Safety.lean ====
section
/-!
DEFINITION. The terms claims are stated in: the registers as a list, which operation may write which (10_state.md
R26), which statuses it can return (60_exceptions.md R152), what holds in every reachable state, and runs.
-/

namespace Sys2Proof.Machine

/-! ### The registers of 10_state.md R10, one by one -/

/-- The registers. -/
inductive Reg where
  | mapMin (m : MapSel)
  | mapMax (m : MapSel)
  | tol
  | rv (t : Slot)
  | cnt (t : Slot)
  | ping
  | pos
  | fltThrV
  | fltThrK
  | fltTqV
  | fltMainV
  deriving DecidableEq, Repr

/-- The width of a register in bits (R10). -/
def Reg.width : Reg → Nat
  | .mapMin _ => 32
  | .mapMax _ => 32
  | .tol => 16
  | .rv _ => 32
  | .cnt _ => 32
  | .ping => 32
  | .pos => 16
  | .fltThrV => 1
  | .fltThrK => 4
  | .fltTqV => 1
  | .fltMainV => 1

/-- The five slots. -/
def allSlots : List Slot := [.free, .main, .thr, .fresh, .esc]

/-- Every register, once (R10). -/
def allRegs : List Reg :=
  [.mapMin .map1, .mapMax .map1, .mapMin .map2, .mapMax .map2, .tol] ++ allSlots.map .rv ++ allSlots.map .cnt ++
    [.ping, .pos, .fltThrV, .fltThrK, .fltTqV, .fltMainV]

/-- What a register holds, as a number. -/
def State.read (s : State) : Reg → Nat
  | .mapMin m => (s.maps.get m).min.toNat
  | .mapMax m => (s.maps.get m).max.toNat
  | .tol => s.tol.toNat
  | .rv t => (s.tmo.get t).rv.toNat
  | .cnt t => (s.tmo.get t).cnt.toNat
  | .ping => s.ping.toNat
  | .pos => s.pos.toNat
  | .fltThrV => s.flt.thrV.toNat
  | .fltThrK => s.flt.thrK.toNat
  | .fltTqV => s.flt.tqV.toNat
  | .fltMainV => s.flt.mainV.toNat

/-- Two states hold the same in every register (the ports aside). -/
def State.sameRegs (s t : State) : Prop :=
  t.maps = s.maps ∧ t.tol = s.tol ∧ t.tmo = s.tmo ∧ t.ping = s.ping ∧ t.pos = s.pos ∧ t.flt = s.flt

/-! ### The access table of R26 -/

/-- The W entries of the access table (R26), with R141's account of when MMON.PING and MMON.PONG write FLT_MAIN: the
registers an operation may write. -/
def written (P : Config.Params) : Instr → List Reg
  | .crcTbl _ _ => []
  | .crcSum _ _ => []
  | .canEnc _ _ _ => []
  | .canDec _ _ _ _ => []
  | .mapNew m _ _ => [.mapMin m, .mapMax m]
  | .mapMap _ _ => []
  | .thrNew _ _ _ _ _ => [.mapMin .map1, .mapMax .map1, .mapMin .map2, .mapMax .map2, .tol]
  | .thrPos _ _ => []
  | .tmoNew t _ => (slotOf t).toList.flatMap fun slot => [.rv slot, .cnt slot]
  | .tmoTick t => (slotOf t).toList.map .cnt
  | .tmoReset t => (slotOf t).toList.map .cnt
  | .tmonCheck _ _ => [.cnt .thr, .pos, .fltThrV, .fltThrK]
  | .mmonTick => [.cnt .main, .fltMainV]
  | .mmonPing =>
      .ping :: (if P.pingSendResets then .cnt .main :: (if P.mainFaultSticky then [] else [.fltMainV]) else [])
  | .mmonPong _ => .cnt .main :: (if P.mainFaultSticky then [] else [.fltMainV])
  | .qmonTick => [.cnt .fresh, .fltTqV]
  | .qmonFrame _ _ _ => [.cnt .fresh, .cnt .esc, .fltTqV]
  | .outGet => []
  | .frameTorqueRequest _ _ _ => []
  | .frameVcmKeepAlive1 _ _ _ => []
  | .frameVcmKeepAlive2 _ _ _ => []
  | .frameInverterStatus _ _ _ => []
  | .frameInverterTemperature _ _ _ => []

/-! ### The statuses of R152 -/

/-- The statuses an operation can return (R152); `none` is OK. A frame row is a CAN.DEC whose identifier is known,
and only a CRC-bearing variant can give BadCrc (R90). -/
def statuses : Instr → List (Option ErrorKind)
  | .crcTbl _ _ => [none]
  | .crcSum _ _ => [none]
  | .canEnc _ _ _ => [none, some .receiveOnly, some .illegalOp]
  | .canDec _ _ _ _ => [none, some .unknownFrame, some .noData, some .badDlc, some .badCrc]
  | .mapNew _ _ _ => [none]
  | .mapMap _ _ => [none]
  | .thrNew _ _ _ _ _ => [none]
  | .thrPos _ _ => [none, some .sensorOutOfRange, some .sensorMismatch]
  | .tmoNew _ _ => [none, some .illegalOp]
  | .tmoTick _ => [none, some .elapsed, some .illegalOp]
  | .tmoReset _ => [none, some .illegalOp]
  | .tmonCheck _ _ => [none, some .sensorOutOfRange, some .sensorMismatch]
  | .mmonTick => [none, some .main]
  | .mmonPing => [none]
  | .mmonPong _ => [none]
  | .qmonTick => [none, some .torque]
  | .qmonFrame _ _ _ => [none, some .torque, some .illegalOp]
  | .outGet => [none]
  | .frameTorqueRequest _ _ _ => [none, some .noData, some .badDlc, some .badCrc]
  | .frameVcmKeepAlive1 _ _ _ => [none, some .noData, some .badDlc, some .badCrc]
  | .frameVcmKeepAlive2 _ _ _ => [none, some .noData, some .badDlc]
  | .frameInverterStatus _ _ _ => [none, some .noData, some .badDlc]
  | .frameInverterTemperature _ _ _ => [none, some .noData, some .badDlc]

/-! ### The command word (30_encoding.md) -/

/-- The 18 opcodes of R50; the other 238 values of `CMD[7:0]` are undefined. -/
def definedOpcodes : List Nat :=
  [0x00, 0x01, 0x10, 0x11, 0x20, 0x21, 0x22, 0x23, 0x30, 0x31, 0x32, 0x40, 0x41, 0x42, 0x43, 0x44, 0x45, 0x50]

/-- The bit ranges, low and high bit, that the format of a command word's opcode names, `CMD[7:0]` first (R46, R47):
every other bit is reserved. -/
def namedRanges (w : CmdWord) : List (Nat × Nat) :=
  (0, 7) ::
    match (opcodeOf w).toNat with
    | 0x00 => [(8, 15), (16, 23)]
    | 0x01 => [(8, 15), (16, 19), (24, 23 + 8 * (field w 16 4).toNat)]
    | 0x10 => [(8, 10), (16, 31), (32, if field w 8 3 = 0#3 then 33 else 39)]
    | 0x11 => [(8, 18), (19, 19), (20, 23), (24, 23 + 8 * carried (field w 20 4))]
    | 0x20 => [(8, 8), (16, 47), (48, 79)]
    | 0x21 => [(8, 8), (16, 47)]
    | 0x22 => [(16, 47), (48, 79), (80, 111), (112, 143), (144, 159)]
    | 0x23 => [(16, 47), (48, 79)]
    | 0x30 => [(8, 10), (16, 47)]
    | 0x31 => [(8, 10)]
    | 0x32 => [(8, 10)]
    | 0x40 => [(16, 47), (48, 79)]
    | 0x43 => [(16, 47)]
    | 0x45 => [(8, 10), (16, 31), (48, 63)]
    | _ => []

/-- Two command words have the same bits wherever the first one's format names a bit. -/
def agreeOnNamedBits (w w' : CmdWord) : Prop :=
  ∀ r ∈ namedRanges w, ∀ j, r.1 ≤ j → j ≤ r.2 → w.getLsbD j = w'.getLsbD j

/-! ### The response word (30_encoding.md) -/

/-- The packed response of R48 that carries a result other than a raw frame, written out from bit 95 down: D, C, B, A, sixteen
zeros, the variant, the flag, and status 0. -/
def okWord (flag : Bool) (variant : BitVec 3) (a : BitVec 32) (b c : BitVec 16) (d : BitVec 8) : RspWord :=
  d ++ c ++ b ++ a ++ 0#16 ++ variant ++ BitVec.ofBool flag ++ 0#4

/-! ### What holds in every reachable state -/

/-- A map is normalised: MIN ≤ MAX (R11). -/
def SensorMap.normalised (m : SensorMap) : Prop := m.min.toNat ≤ m.max.toNat

/-- A Timeout's counter does not exceed its reset value (R13, R119). -/
def Timeout.bounded (x : Timeout) : Prop := x.cnt.toNat ≤ x.rv.toNat

/-- FLT_THR.K is a throttle error's code while FLT_THR.V is set, and 0 while it is not (R16). -/
def FaultFlags.coherent (f : FaultFlags) : Prop :=
  if f.thrV then ∃ e : ThrottleError, f.thrK = e.kind.code else f.thrK = 0#4

/-- The invariants R11, R13 and R16 state of every reachable state. -/
structure State.Inv (s : State) : Prop where
  /-- R11 -/
  maps : ∀ m, (s.maps.get m).normalised
  /-- R13 -/
  timeouts : ∀ t, (s.tmo.get t).bounded
  /-- R16 -/
  flags : s.flt.coherent

/-- No unit that gives a position has been configured (R171): both maps degenerate, and nothing but 0 handed on. -/
structure State.Unconfigured (s : State) : Prop where
  /-- every map rejects every input (R103) -/
  degenerate : ∀ m, (s.maps.get m).min = (s.maps.get m).max
  /-- POS holds 0 -/
  pos : s.pos = 0#16

/-- The instructions of the units without state: U0 and U1, the frame rows included (R19, R20). -/
def ofStatelessUnit : Instr → Bool
  | .crcTbl _ _ => true
  | .crcSum _ _ => true
  | .canEnc _ _ _ => true
  | .canDec _ _ _ _ => true
  | .frameTorqueRequest _ _ _ => true
  | .frameVcmKeepAlive1 _ _ _ => true
  | .frameVcmKeepAlive2 _ _ _ => true
  | .frameInverterStatus _ _ _ => true
  | .frameInverterTemperature _ _ _ => true
  | _ => false

/-- The instructions that write a map (R11): MAP.NEW and THR.NEW. -/
def configuresMap : Instr → Bool
  | .mapNew _ _ _ => true
  | .thrNew _ _ _ _ _ => true
  | _ => false

/-! ### Payloads -/

/-- The payload with bit `j` flipped, bit `8·k + b` being bit `b` of byte `k` (R98). -/
def flipBit (bytes : List Byte) (j : Nat) : List Byte :=
  bytes.set (j / 8) (memRead8 bytes (j / 8) ^^^ (1#8 <<< (j % 8)))

/-! ### Runs -/

/-- A run of instructions in the order the host issues them (R40, R180): the responses, first one first, and the state
after it; `none` where one did not complete. -/
def runInstrs : List Instr → State → Option (List (Option Response) × State)
  | [], s => some ([], s)
  | i :: rest, s =>
    match exec i s with
    | .next t => (runInstrs rest t).map fun o => (t.response :: o.1, o.2)
    | .fault _ => none
    | .refused _ => none

end Sys2Proof.Machine
end

