-- ==== Sys2Proof/Certificates/Slice0/Obligations.lean ====
section
/-!
DEFINITION. The statements about the block, for the provers. Each docstring names the rule of spec/ it formalises.
-/

open Sys2Proof Sys2Proof.Machine

/-! ### Reset, steps, input -/

/-- R24: after reset every register holds 0, and what that means for each unit: every tick of every slot fails, every
map rejects every input, OUT.GET reports Operational with position 0. -/
def Obligations.ResetLeavesEveryRegisterZero : Prop :=
  (∀ r, State.reset.read r = 0) ∧
  (∀ t, tick t State.reset = none) ∧
  (∀ m x, (State.reset.maps.get m).map x = none) ∧
  exec .outGet State.reset = .next (respond (.output false 0#16 0#2 0#4) State.reset)

/-- R171: what the reset state means for each unit. Every MAP.MAP gives no value and every THR.POS SensorOutOfRange; every
TMO.TICK of a defined slot gives Elapsed and TMO.RESET leaves the counter at 0; every TMON.CHECK escalates SensorOutOfRange
at once; the first MMON.TICK returns Main and the first QMON.TICK Torque; an implausible TorqueRequest escalates at once;
and OUT.GET gives Operational with position 0. -/
def Obligations.ResetStateFailsClosed : Prop :=
  let s := State.reset
  (∀ m x, exec (.mapMap m x) s = .next { s with response := some (.ok (.mapped none)) }) ∧
  (∀ s1 s2, exec (.thrPos s1 s2) s = .next { s with response := some (.error .sensorOutOfRange) }) ∧
  (∀ t slot, slotOf t = some slot →
    exec (.tmoTick t) s = .next { s with response := some (.error .elapsed) } ∧
    exec (.tmoReset t) s = .next { s with response := some (.ok (.counter 0#32)) }) ∧
  (∀ s1 s2, exec (.tmonCheck s1 s2) s = .next { s with
    flt := ⟨true, 6#4, false, false⟩, response := some (.error .sensorOutOfRange) }) ∧
  exec .mmonTick s = .next { s with flt := ⟨false, 0#4, false, true⟩, response := some (.error .main) } ∧
  exec .qmonTick s = .next { s with flt := ⟨false, 0#4, true, false⟩, response := some (.error .torque) } ∧
  (∀ torque pos, exec (.qmonFrame 0#3 torque pos) s = .next (
    if Config.plaus pos torque then { s with response := some (.ok (.sampled false)) }
    else { s with flt := ⟨false, 0#4, true, false⟩, response := some (.error .torque) })) ∧
  exec .outGet s = .next { s with response := some (.ok (.output false 0#16 0#2 0#4)) } ∧
  s.fault = false

/-- A reset event gives the reset state, whatever the block held, with the host's later events still to come (R170; the
event and what becomes of the ports are the model's, log 2). With no event to come a step changes nothing (log 15). -/
def Obligations.ResetEventAndIdleStep : Prop :=
  (∀ (s : State) rest, s.input = .reset :: rest → step s = .next { State.reset with input := rest }) ∧
  (∀ s : State, s.input = [] → step s = .next s)

/-- A step whose next event is a word that decodes runs the decoded instruction, with the event taken from the input and
nothing else done (R6, R40; how words reach the block, and that frames are words too, is the model's, log 1, 4). -/
def Obligations.StepRunsDecodedInstruction : Prop :=
  ∀ (s : State) w rest i, s.input = .present w :: rest → decode w = .ok i →
    step s = exec i { s with input := rest }

/-- R150 says that every command in every state has exactly one next state and one response. Here: every step answers a
next state, and after a presented word there is a response. Beyond commands this covers what is the model's own: frame words
(log 4), the input list (log 1), reset events (log 2) and idle steps (log 15). -/
def Obligations.EveryStepCompletes : Prop :=
  ∀ s : State, ∃ t, step s = .next t ∧
    ∀ w rest, s.input = .present w :: rest → t.response.isSome = true ∧ t.input = rest

/-- R158: a command with an undefined opcode, or with an undefined slot or variant selector, returns IllegalOp with all
other response bits 0 and changes no register and no flag. -/
def Obligations.UndefinedCommandsAreIllegal : Prop :=
  ∀ (s : State) w rest, s.input = .present (.cmd w) :: rest →
    ((opcodeOf w).toNat ∉ definedOpcodes ∨
      ((opcodeOf w).toNat ∈ [0x30, 0x31, 0x32, 0x10, 0x45] ∧ 5 ≤ (field w 8 3).toNat)) →
    ∃ t, step s = .next t ∧ t.response = some (.error .illegalOp) ∧ t.rsp.toNat = 11 ∧ s.sameRegs t ∧
      t.input = rest

/-- A raw frame with an identifier that is none of the five is answered UnknownFrame and changes no register (R62 of
CAN.DEC; that the model also takes raw frames as words is log 4 and 5). -/
def Obligations.UnknownFrameWordsAreAnswered : Prop :=
  ∀ (s : State) w rest, s.input = .present (.frame w) :: rest →
    (field w 0 11).toNat ∉ [0x14D, 0x11A, 0x50B, 0x1DA, 0x55A] →
    ∃ t, step s = .next t ∧ t.response = some (.error .unknownFrame) ∧ s.sameRegs t ∧ t.input = rest

/-! ### Words -/

/-- Decoding the encoding of a well-formed instruction gives the instruction, for every instruction and every operand
value its encoding admits (R46, R47, R50; the frame rows by log 4 and 5). -/
def Obligations.DecodeEncodeRoundTrip : Prop :=
  ∀ i : Instr, i.wellFormed = true → decode (encode i) = .ok i

/-- Every word that decodes decodes to a well-formed instruction (R47; the frame words and their rows are the model's, log 4
and 5). -/
def Obligations.DecodedInstructionsAreWellFormed : Prop :=
  ∀ w i, decode w = .ok i → i.wellFormed = true

/-- R50: the opcodes that decode are exactly the 18 of the opcode map; for raw frames, the five identifiers (log 4, 5). -/
def Obligations.ExactlyTheTableDecodes : Prop :=
  (∀ w, (∃ i, decode (.cmd w) = .ok i) ↔ (opcodeOf w).toNat ∈ definedOpcodes) ∧
  (∀ w, (∃ i, decode (.frame w) = .ok i) ↔ (field w 0 11).toNat ∈ [0x14D, 0x11A, 0x50B, 0x1DA, 0x55A])

/-- R46: the bits of a command word that its format does not name never change what it decodes to, nor, so, a response or
the state. -/
def Obligations.ReservedBitsNeverMatter : Prop :=
  ∀ w w' : CmdWord, agreeOnNamedBits w w' →
    decode (.cmd w') = decode (.cmd w) ∧
    ∀ (s : State) rest, step { s with input := .present (.cmd w') :: rest } =
      step { s with input := .present (.cmd w) :: rest }

/-- A few words written out from R47's formats decode to the commands they stand for. -/
def Obligations.WrittenOutWordsDecode : Prop :=
  decode (.cmd 0x0000000000000000000000000000000000800700#160) = .ok (.crcTbl 0x07#8 0x80#8) ∧
  decode (.cmd 0x00000000000000000000000000000002fc180010#160) = .ok (.canEnc 0#3 0xFC18#16 2#8) ∧
  decode (.cmd 0x00fa00000fa000000bb8000007d0000003e80022#160)
    = .ok (.thrNew 1000#32 2000#32 3000#32 4000#32 250#16) ∧
  decode (.cmd 0x0000000000000000000000000000000000020230#160) = .ok (.tmoNew 2#3 2#32) ∧
  decode (.cmd 0x0000000000000000000000007fff000001f40045#160) = .ok (.qmonFrame 0#3 500#16 32767#16) ∧
  decode (.cmd 0x0000000000000000000000000000000000000050#160) = .ok .outGet

/-- R52: the slot selectors 0 to 4 are the five slots in order and 5 to 7 none; map selector bit 0 is `MAP[1]`, bit 1
`MAP[2]`. -/
def Obligations.SelectorsNameSlotsAndMaps : Prop :=
  slotOf 0#3 = some .free ∧ slotOf 1#3 = some .main ∧ slotOf 2#3 = some .thr ∧ slotOf 3#3 = some .fresh ∧
  slotOf 4#3 = some .esc ∧
  (∀ t : BitVec 3, 5 ≤ t.toNat → slotOf t = none ∧
    ∀ (val : Tick) (s : State), exec (.tmoNew t val) s = .next (raise .illegalOp s) ∧
      exec (.tmoTick t) s = .next (raise .illegalOp s) ∧ exec (.tmoReset t) s = .next (raise .illegalOp s)) ∧
  mapSelOfBit false = .map1 ∧ mapSelOfBit true = .map2

/-! ### U0, the CRC-8 checker -/

/-- R71: entry 0 of every table is 0; and, by the rule's own [derived] remark, entry 1 is the polynomial and every entry of
polynomial 0 is 0. -/
def Obligations.CrcTableFirstEntries : Prop :=
  (∀ p, tblRead p 0#8 = 0#8) ∧ (∀ p, tblRead p 1#8 = p) ∧ (∀ i, tblRead 0#8 i = 0#8)

/-- The table is linear in the index (from R70's shift and XOR steps). -/
def Obligations.CrcTableIsLinear : Prop :=
  ∀ p a b, tblRead p (a ^^^ b) = tblRead p a ^^^ tblRead p b

/-- R72: the checksum is the fold of the table over the list from 0; and, by R74's own [derived] remark, the checksum of
`a ++ b` is the fold over `b` started from the checksum of `a`, so a longer list is checksummed by chaining. -/
def Obligations.ChecksumFoldsTheTable : Prop :=
  (∀ p, checksum [] p = 0#8) ∧
  (∀ l b p, checksum (l ++ [b]) p = tblRead p (checksum l p ^^^ b)) ∧
  (∀ a b p, checksum (a ++ b) p = checksumFrom p (checksum a p) b)

/-- The checksum is linear over XOR of lists of equal length (96_test_programs.md Q2). -/
def Obligations.ChecksumIsLinear : Prop :=
  ∀ (a b : List Byte) p, a.length = b.length →
    checksum (List.zipWith (· ^^^ ·) a b) p = checksum a p ^^^ checksum b p

/-- R75, which the spec marks [derived]: a list with its own checksum appended has checksum 0, so for a payload of eight
bytes the check of R90 is the same as the whole payload's checksum being 0. -/
def Obligations.SealedListHasChecksumZero : Prop :=
  (∀ l p, checksum (l ++ [checksum l p]) p = 0#8) ∧
  (∀ bytes : List Byte, bytes.length = 8 →
    (checksum (bytes.take 7) 0x85#8 = memRead8 bytes 7 ↔ checksum bytes 0x85#8 = 0#8))

/-- R77 with R73 and R74: CRC.TBL and CRC.SUM always return OK with the table entry and the checksum, write nothing, and
give the same response in every state. -/
def Obligations.CrcOperationsComplete : Prop :=
  (∀ p idx s, exec (.crcTbl p idx) s = .next { s with response := some (.ok (.entry (tblRead p idx))) }) ∧
  (∀ p bytes s, exec (.crcSum p bytes) s = .next { s with response := some (.ok (.crc (checksum bytes p))) })

/-! ### U1, the CAN frame codec -/

/-- R82, R83, R84, for the default LAYOUT (D7, log 9): the frames CAN.ENC builds, byte by byte, the CRC computed fresh over
the seven bytes before it. -/
def Obligations.CanEncBuildsFrames : Prop :=
  (∀ torque counter s,
    let b : List Byte := [torque.extractLsb' 0 8, torque.extractLsb' 8 8,
      counter.extractLsb' 0 2 ++ 0#6, 0#8, 0#8, 0#8, 0#8]
    exec (.canEnc 0#3 torque counter) s =
      .next { s with response := some (.ok (.frame .torqueRequest 0x14D#11 (b ++ [checksum b 0x85#8]))) }) ∧
  (∀ torque counter s,
    let b : List Byte := [counter, 0#8, 0#8, 0#8, 0#8, 0#8, 0#8]
    exec (.canEnc 1#3 torque counter) s =
      .next { s with response := some (.ok (.frame .vcmKeepAlive1 0x11A#11 (b ++ [checksum b 0x85#8]))) }) ∧
  (∀ torque counter s,
    exec (.canEnc 2#3 torque counter) s =
      .next { s with response := some (.ok (.frame .vcmKeepAlive2 0x50B#11 [0#8, 0#8, 0#8, 0#8, 0#8, 0#8, 0#8])) })

/-- R85: encoding a receive-only variant is ReceiveOnly, with no frame; R61: an undefined selector is IllegalOp. -/
def Obligations.CanEncRejects : Prop :=
  (∀ v torque counter s, v = 3#3 ∨ v = 4#3 → exec (.canEnc v torque counter) s = .next (raise .receiveOnly s)) ∧
  (∀ v torque counter s, 5 ≤ v.toNat → exec (.canEnc v torque counter) s = .next (raise .illegalOp s))

/-- R62, R87 to R90: the checks of CAN.DEC in their order, the first that fails ending the operation: unknown identifier,
missing payload, wrong length, wrong CRC of a CRC-bearing variant; otherwise a message of the identifier's variant.
Nothing but the response port changes. -/
def Obligations.CanDecChecksInOrder : Prop :=
  ∀ id hasData len bytes (s : State), ∃ r, exec (.canDec id hasData len bytes) s = .next { s with response := some r } ∧
    let lengthFits : Prop :=
      (id = 0x14D#11 ∧ len.toNat = 8) ∨ (id = 0x11A#11 ∧ len.toNat = 8) ∨ (id = 0x50B#11 ∧ len.toNat = 7) ∨
      (id = 0x1DA#11 ∧ len.toNat = 7) ∨ (id = 0x55A#11 ∧ 2 ≤ len.toNat ∧ len.toNat ≤ 8)
    let crcFails : Prop :=
      (id = 0x14D#11 ∨ id = 0x11A#11) ∧ checksum (bytes.take 7) 0x85#8 ≠ memRead8 bytes 7
    if id.toNat ∉ [0x14D, 0x11A, 0x50B, 0x1DA, 0x55A] then r = .error .unknownFrame
    else if hasData = false then r = .error .noData
    else if ¬ lengthFits then r = .error .badDlc
    else if crcFails then r = .error .badCrc
    else ∃ m, r = .ok (.message m) ∧ variantId m.variant = id

/-- R91 to R95, for the default LAYOUT (D7, log 9): the fields of each frame that passes the checks; and a raw frame
presented as a word of the table's CAN_ID space gives the same message (log 4). -/
def Obligations.CanDecExtractsFields : Prop :=
  ∀ (b0 b1 b2 b3 b4 b5 b6 b7 : Byte) (s : State),
    (checksum [b0, b1, b2, b3, b4, b5, b6] 0x85#8 = b7 →
      let t := { s with response := some (.ok (.message (.torqueRequest (b1 ++ b0) (b2.extractLsb' 6 2)))) }
      exec (.canDec 0x14D#11 true 8#4 [b0, b1, b2, b3, b4, b5, b6, b7]) s = .next t ∧
      exec (.frameTorqueRequest true 8#4 [b0, b1, b2, b3, b4, b5, b6, b7]) s = .next t) ∧
    (checksum [b0, b1, b2, b3, b4, b5, b6] 0x85#8 = b7 →
      let t := { s with response := some (.ok (.message (.vcmKeepAlive1 b0))) }
      exec (.canDec 0x11A#11 true 8#4 [b0, b1, b2, b3, b4, b5, b6, b7]) s = .next t ∧
      exec (.frameVcmKeepAlive1 true 8#4 [b0, b1, b2, b3, b4, b5, b6, b7]) s = .next t) ∧
    (
      let t := { s with response := some (.ok (.message .vcmKeepAlive2)) }
      exec (.canDec 0x50B#11 true 7#4 [b0, b1, b2, b3, b4, b5, b6]) s = .next t ∧
      exec (.frameVcmKeepAlive2 true 7#4 [b0, b1, b2, b3, b4, b5, b6]) s = .next t) ∧
    (∃ mv : BitVec 32, mv.toNat = (b0.toNat + 256 * b1.toNat) * 500 ∧
      let t := { s with response := some (.ok (.message (.inverterStatus mv (b3 ++ b2) (b5 ++ b4) b6))) }
      exec (.canDec 0x1DA#11 true 7#4 [b0, b1, b2, b3, b4, b5, b6]) s = .next t ∧
      exec (.frameInverterStatus true 7#4 [b0, b1, b2, b3, b4, b5, b6]) s = .next t) ∧
    (∀ rest : List Byte, rest.length ≤ 6 →
      let t := { s with response := some (.ok (.message (.inverterTemperature b0 b1))) }
      exec (.canDec 0x55A#11 true (BitVec.ofNat 4 (2 + rest.length)) (b0 :: b1 :: rest)) s = .next t ∧
      exec (.frameInverterTemperature true (BitVec.ofNat 4 (2 + rest.length)) (b0 :: b1 :: rest)) s = .next t)

/-- A raw frame presented as a word of the table's CAN_ID space is CAN.DEC of the row's identifier, whatever its payload
(R54 to R58 with R86; the reading of the frame rows is the model's, log 4). -/
def Obligations.FrameRowsAreCanDec : Prop :=
  ∀ hasData len bytes s,
    exec (.frameTorqueRequest hasData len bytes) s = exec (.canDec 0x14D#11 hasData len bytes) s ∧
    exec (.frameVcmKeepAlive1 hasData len bytes) s = exec (.canDec 0x11A#11 hasData len bytes) s ∧
    exec (.frameVcmKeepAlive2 hasData len bytes) s = exec (.canDec 0x50B#11 hasData len bytes) s ∧
    exec (.frameInverterStatus hasData len bytes) s = exec (.canDec 0x1DA#11 hasData len bytes) s ∧
    exec (.frameInverterTemperature hasData len bytes) s = exec (.canDec 0x55A#11 hasData len bytes) s

/-- R96: a CAN.DEC that does not answer OK carries no variant and no field: every bit of the packed response above the
status is 0. -/
def Obligations.FailedDecodeCarriesNothing : Prop :=
  ∀ id hasData len bytes (s t : State), exec (.canDec id hasData len bytes) s = .next t →
    (∃ m, t.response = some (.ok (.message m))) ∨ (∃ e, t.response = some (.error e) ∧ t.rsp.toNat = e.code.toNat)

/-- R97: decoding the frame that CAN.ENC gives returns the same fields, for TorqueRequest and, by the rule's own [derived]
remark, for VcmKeepAlive1 and VcmKeepAlive2. The converse fails, because decode ignores filler bits that encode writes as 0:
the frame of 95_test_vectors.md V11, whose filler is not 0, decodes to fields that encode to another frame (its bytes are
those of the default LAYOUT, D7, log 9). -/
def Obligations.EncodedFramesDecodeBack : Prop :=
  (∀ torque counter (s : State), ∃ payload t,
    exec (.canEnc 0#3 torque counter) s = .next t ∧
    t.response = some (.ok (.frame .torqueRequest 0x14D#11 payload)) ∧
    ∃ u, exec (.canDec 0x14D#11 true (BitVec.ofNat 4 payload.length) payload) t = .next u ∧
      u.response = some (.ok (.message (.torqueRequest torque (counter.extractLsb' 0 2))))) ∧
  (∀ torque counter (s : State), ∃ payload t,
    exec (.canEnc 1#3 torque counter) s = .next t ∧
    t.response = some (.ok (.frame .vcmKeepAlive1 0x11A#11 payload)) ∧
    ∃ u, exec (.canDec 0x11A#11 true (BitVec.ofNat 4 payload.length) payload) t = .next u ∧
      u.response = some (.ok (.message (.vcmKeepAlive1 counter)))) ∧
  (∀ torque counter (s : State), ∃ payload t,
    exec (.canEnc 2#3 torque counter) s = .next t ∧
    t.response = some (.ok (.frame .vcmKeepAlive2 0x50B#11 payload)) ∧
    ∃ u, exec (.canDec 0x50B#11 true (BitVec.ofNat 4 payload.length) payload) t = .next u ∧
      u.response = some (.ok (.message .vcmKeepAlive2))) ∧
  (∀ s : State,
    let bytes : List Byte := [0xE8#8, 0x03#8, 0xBF#8, 0x11#8, 0x22#8, 0x33#8, 0x44#8, 0x15#8]
    let again : List Byte := [0xE8#8, 0x03#8, 0x80#8, 0#8, 0#8, 0#8, 0#8, 0x4A#8]
    exec (.canDec 0x14D#11 true 8#4 bytes) s
      = .next { s with response := some (.ok (.message (.torqueRequest 1000#16 2#2))) } ∧
    exec (.canEnc 0#3 1000#16 2#8) s
      = .next { s with response := some (.ok (.frame .torqueRequest 0x14D#11 again)) } ∧ again ≠ bytes)

/-- R98: flipping any single bit of a CRC-bearing payload of eight bytes that passes the CRC check makes CAN.DEC fail with
BadCrc (the payloads CAN.ENC builds are among those that pass). That any two flipped bits give BadCrc too is R98's own
[derived] remark, on which it says no rule relies. Flipping one identifier bit of such a frame gives an identifier that is
none of the five, so UnknownFrame, by R87 (of R98's 'UnknownFrame or another variant's checks' the second does not occur for
one bit). R98's error of four bits passes the check; the fields it decodes to are those of the default LAYOUT (D7, log 9). -/
def Obligations.TamperedFramesAreRejected : Prop :=
  (∀ (bytes : List Byte) (s : State), bytes.length = 8 → checksum (bytes.take 7) 0x85#8 = memRead8 bytes 7 →
    ∀ id : CanId, id = 0x14D#11 ∨ id = 0x11A#11 →
      (∀ j < 64, exec (.canDec id true 8#4 (flipBit bytes j)) s = .next (raise .badCrc s)) ∧
      (∀ j < 64, ∀ k < 64, j ≠ k →
        exec (.canDec id true 8#4 (flipBit (flipBit bytes j) k)) s = .next (raise .badCrc s)) ∧
      (∀ j < 11, exec (.canDec (id ^^^ (1#11 <<< j)) true 8#4 bytes) s = .next (raise .unknownFrame s))) ∧
  (∀ torque counter (s : State), ∃ payload,
    exec (.canEnc 0#3 torque counter) s
      = .next { s with response := some (.ok (.frame .torqueRequest 0x14D#11 payload)) } ∧
    payload.length = 8 ∧ checksum (payload.take 7) 0x85#8 = memRead8 payload 7) ∧
  (∀ torque counter (s : State), ∃ payload,
    exec (.canEnc 1#3 torque counter) s
      = .next { s with response := some (.ok (.frame .vcmKeepAlive1 0x11A#11 payload)) } ∧
    payload.length = 8 ∧ checksum (payload.take 7) 0x85#8 = memRead8 payload 7) ∧
  (∀ s : State, exec (.canDec 0x14D#11 true 8#4
      [0xE8#8 ^^^ 0x01#8, 0x03#8 ^^^ 0x85#8, 0x80#8, 0x00#8, 0x00#8, 0x00#8, 0x00#8, 0x4A#8]) s
    = .next { s with response := some (.ok (.message (.torqueRequest 0x86E9#16 2#2))) })

/-- The units without state ignore the state: an operation of U0 or U1 gives the same response in every two states and
changes no register (R19, R20; that the frame rows are operations of U1 is log 4). -/
def Obligations.StatelessUnitsIgnoreTheState : Prop :=
  ∀ (i : Instr) (s s' : State), ofStatelessUnit i = true →
    ∃ t t', exec i s = .next t ∧ exec i s' = .next t' ∧ t.response = t'.response ∧ s.sameRegs t ∧ s'.sameRegs t'

/-! ### U2, the throttle -/

/-- R100: MAP.NEW stores the lesser bound as MIN and the greater as MAX, whichever comes first, and nothing else. -/
def Obligations.MapNewNormalises : Prop :=
  ∀ m a b (s : State),
    (∃ x : SensorMap, exec (.mapNew m a b) s
        = .next { s with maps := s.maps.set m x, response := some (.ok .done) } ∧
      x.min.toNat = min a.toNat b.toNat ∧ x.max.toNat = max a.toNat b.toNat) ∧
    exec (.mapNew m a b) s = exec (.mapNew m b a) s

/-- R101, R103: MAP.MAP answers the scaled quotient for an input of the closed interval and no value for one outside it or
for a degenerate map; the status is OK in every case (R102) and nothing but the response port changes. -/
def Obligations.MapMapScalesOrRejects : Prop :=
  ∀ m x (s : State),
    let lo := (s.maps.get m).min.toNat
    let hi := (s.maps.get m).max.toNat
    ∃ r : Option Pos, exec (.mapMap m x) s = .next { s with response := some (.ok (.mapped r)) } ∧
      if lo = hi then r = none
      else if x.toNat < lo ∨ hi < x.toNat then r = none
      else ∃ y : Pos, r = some y ∧ y.toNat = (x.toNat - lo) * 65535 / (hi - lo)

/-- A well-formed map sends its ends to 0 and 65535 and is monotone between them (96_test_programs.md Q8). -/
def Obligations.MapEndsAndMonotone : Prop :=
  ∀ m : SensorMap, m.min.toNat < m.max.toNat →
    m.map m.min = some 0#16 ∧ m.map m.max = some 65535#16 ∧
    ∀ (x x' : Raw), m.min.toNat ≤ x.toNat → x.toNat ≤ x'.toNat → x'.toNat ≤ m.max.toNat →
      ∃ y y', m.map x = some y ∧ m.map x' = some y' ∧ y.toNat ≤ y'.toNat

/-- R104: THR.NEW writes both maps, each normalised, and TOL, and nothing else. -/
def Obligations.ThrNewWritesTheThrottle : Prop :=
  ∀ a1 b1 a2 b2 tol (s : State), ∃ x1 x2 : SensorMap,
    exec (.thrNew a1 b1 a2 b2 tol) s
      = .next { s with maps := ⟨x1, x2⟩, tol := tol, response := some (.ok .done) } ∧
    x1.min.toNat = min a1.toNat b1.toNat ∧ x1.max.toNat = max a1.toNat b1.toNat ∧
    x2.min.toNat = min a2.toNat b2.toNat ∧ x2.max.toNat = max a2.toNat b2.toNat

/-- R105 to R107 for THR.POS: SensorOutOfRange when either sensor does not map; else SensorMismatch when the mapped values
differ by more than TOL; else the truncated mean, which (R107's own [derived] remark) lies between the two. No register
changes. -/
def Obligations.ThrPosFusesTwoSensors : Prop :=
  ∀ s1 s2 (s : State),
    ((s.maps.map1.map s1 = none ∨ s.maps.map2.map s2 = none) →
      exec (.thrPos s1 s2) s = .next (raise .sensorOutOfRange s)) ∧
    (∀ p1 p2, s.maps.map1.map s1 = some p1 → s.maps.map2.map s2 = some p2 →
      (s.tol.toNat < max p1.toNat p2.toNat - min p1.toNat p2.toNat →
        exec (.thrPos s1 s2) s = .next (raise .sensorMismatch s)) ∧
      (max p1.toNat p2.toNat - min p1.toNat p2.toNat ≤ s.tol.toNat →
        ∃ p : Pos, exec (.thrPos s1 s2) s = .next { s with response := some (.ok (.position p)) } ∧
          p.toNat = (p1.toNat + p2.toNat) / 2 ∧ min p1.toNat p2.toNat ≤ p.toNat ∧
          p.toNat ≤ max p1.toNat p2.toNat))

/-! ### U3, the Timeouts -/

/-- TMO.NEW on a defined slot writes its reset value and its counter, returns the counter, and changes nothing else (R116);
a value of 0 is accepted (R120). -/
def Obligations.TmoNewConstructs : Prop :=
  ∀ t slot val (s : State), slotOf t = some slot →
    exec (.tmoNew t val) s
      = .next { s with tmo := s.tmo.set slot ⟨val, val⟩, response := some (.ok (.counter val)) }

/-- TMO.TICK on a defined slot: while the counter is greater than 0 it goes down by one and the tick succeeds, also when
that brings it to 0; when it is 0 nothing changes and the tick fails with Elapsed (R117). No flag changes. -/
def Obligations.TmoTickCountsDown : Prop :=
  ∀ t slot (s : State), slotOf t = some slot →
    (0 < (s.tmo.get slot).cnt.toNat → ∃ c : Tick, c.toNat + 1 = (s.tmo.get slot).cnt.toNat ∧
      exec (.tmoTick t) s = .next { s with tmo := s.tmo.set slot ⟨(s.tmo.get slot).rv, c⟩,
                                           response := some (.ok (.counter c)) }) ∧
    ((s.tmo.get slot).cnt.toNat = 0 → exec (.tmoTick t) s = .next (raise .elapsed s))

/-- TMO.RESET on a defined slot restores the counter to the reset value from any state, and never fails (R118). -/
def Obligations.TmoResetRestarts : Prop :=
  ∀ t slot (s : State), slotOf t = some slot →
    exec (.tmoReset t) s = .next { s with tmo := s.tmo.set slot ⟨(s.tmo.get slot).rv, (s.tmo.get slot).rv⟩,
                                          response := some (.ok (.counter (s.tmo.get slot).rv)) }

/-- A Timeout constructed with value N accepts exactly N ticks: of any number of ticks after TMO.NEW, the first N succeed
and count down to 0, and every later one fails with Elapsed (R117, R119; 96_test_programs.md Q10). -/
def Obligations.TimeoutAcceptsExactlyNTicks : Prop :=
  ∀ t slot val (s s0 : State) k, slotOf t = some slot → exec (.tmoNew t val) s = .next s0 →
    ∃ u, runInstrs (List.replicate k (.tmoTick t)) s0
      = some ((List.range k).map (fun j =>
          if j < val.toNat then some (Response.ok (.counter (BitVec.ofNat 32 (val.toNat - 1 - j))))
          else some (Response.error .elapsed)), u) ∧
      (u.tmo.get slot).rv = val ∧ (u.tmo.get slot).cnt.toNat = val.toNat - k ∧ u.flt = s.flt

/-! ### U4, the monitors -/

/-- TMON.CHECK (R127) with the flag update of R141. A good reading restarts the grace Timeout, stores and returns the
position and clears the throttle flag; a bad one ticks the grace Timeout and stores position 0, and is masked while the
tick succeeds and escalated, with this reading's error, when it fails. -/
def Obligations.TmonCheckDebounces : Prop :=
  ∀ s1 s2 (s : State),
    (∀ p, fusedPosition s s1 s2 = .ok p →
      exec (.tmonCheck s1 s2) s = .next { s with
        tmo := { s.tmo with thr := ⟨s.tmo.thr.rv, s.tmo.thr.rv⟩ }, pos := p,
        flt := { s.flt with thrV := false, thrK := 0#4 }, response := some (.ok (.checked p false)) }) ∧
    (∀ e, fusedPosition s s1 s2 = .error e → 0 < s.tmo.thr.cnt.toNat →
      exec (.tmonCheck s1 s2) s = .next { s with
        tmo := { s.tmo with thr := ⟨s.tmo.thr.rv, s.tmo.thr.cnt - 1#32⟩ }, pos := 0#16,
        response := some (.ok (.checked 0#16 true)) }) ∧
    (∀ e, fusedPosition s s1 s2 = .error e → s.tmo.thr.cnt.toNat = 0 →
      exec (.tmonCheck s1 s2) s = .next { s with
        pos := 0#16, flt := { s.flt with thrV := true, thrK := e.kind.code }, response := some (.error e.kind) })

/-- R125 for the ThrottleMonitor: of any consecutive bad readings, which may differ and be of different kinds, as many are
masked as the grace Timeout counts, and every further one is escalated with its own error (R127); POS is 0 after them, and
FLT_THR holds the kind of the last one when that was escalated and is as before when all were masked. -/
def Obligations.GraceTimeoutMasksExactlyItsCount : Prop :=
  ∀ (s : State) (readings : List (Raw × Raw)) (e : Raw × Raw → ThrottleError),
    (∀ r ∈ readings, fusedPosition s r.1 r.2 = .error (e r)) →
    ∃ u, runInstrs (readings.map fun r => .tmonCheck r.1 r.2) s
      = some (readings.mapIdx (fun j r =>
          if j < s.tmo.thr.cnt.toNat then some (Response.ok (.checked 0#16 true))
          else some (Response.error (e r).kind)), u) ∧
      u.tmo.thr.rv = s.tmo.thr.rv ∧ u.tmo.thr.cnt.toNat = s.tmo.thr.cnt.toNat - readings.length ∧
      (readings ≠ [] → u.pos = 0#16) ∧
      (∀ r, readings.getLast? = some r → s.tmo.thr.cnt.toNat < readings.length →
        u.flt = { s.flt with thrV := true, thrK := (e r).kind.code }) ∧
      (readings.length ≤ s.tmo.thr.cnt.toNat → u.flt = s.flt)

/-- MMON.TICK (R129) with R141: while the liveness counter is greater than 0 it goes down by one and is returned; at 0 the
answer is Main and the Main flag is set. -/
def Obligations.MmonTickSupervises : Prop :=
  ∀ s : State,
    (0 < s.tmo.main.cnt.toNat →
      exec .mmonTick s = .next { s with
        tmo := { s.tmo with main := ⟨s.tmo.main.rv, s.tmo.main.cnt - 1#32⟩ },
        response := some (.ok (.counter (s.tmo.main.cnt - 1#32))) }) ∧
    (s.tmo.main.cnt.toNat = 0 →
      exec .mmonTick s = .next { s with flt := { s.flt with mainV := true }, response := some (.error .main) })

/-- MMON.PING (R130) with R141, for either value of each open parameter: the ping counter goes up by one, modulo 2^32, and
the new value is returned; the liveness Timeout is restarted only when PING_SEND_RESETS, and the Main flag is cleared
only when it is also not sticky. -/
def Obligations.MmonPingCounts : Prop :=
  ∀ s : State, ∃ v : Ping, v.toNat = (s.ping.toNat + 1) % 2 ^ 32 ∧
    exec .mmonPing s = .next { s with
      ping := v,
      tmo := if Config.pingSendResets then { s.tmo with main := ⟨s.tmo.main.rv, s.tmo.main.rv⟩ } else s.tmo,
      flt := if Config.pingSendResets && !Config.mainFaultSticky then { s.flt with mainV := false } else s.flt,
      response := some (.ok (.ping v)) }

/-- MMON.PONG (R131) with R141: a pong equal to the ping counter restarts the liveness Timeout, and clears the Main flag
only when it is not sticky; another pong changes nothing but the response. -/
def Obligations.MmonPongMatches : Prop :=
  ∀ val (s : State),
    (val = s.ping →
      exec (.mmonPong val) s = .next { s with
        tmo := { s.tmo with main := ⟨s.tmo.main.rv, s.tmo.main.rv⟩ },
        flt := if Config.mainFaultSticky then s.flt else { s.flt with mainV := false },
        response := some (.ok (.pong true)) }) ∧
    (val ≠ s.ping → exec (.mmonPong val) s = .next { s with response := some (.ok (.pong false)) })

/-- QMON.TICK (R133) with R141: while the freshness counter is greater than 0 it goes down by one and is returned; at 0
the answer is Torque and the torque flag is set. -/
def Obligations.QmonTickSupervises : Prop :=
  ∀ s : State,
    (0 < s.tmo.fresh.cnt.toNat →
      exec .qmonTick s = .next { s with
        tmo := { s.tmo with fresh := ⟨s.tmo.fresh.rv, s.tmo.fresh.cnt - 1#32⟩ },
        response := some (.ok (.counter (s.tmo.fresh.cnt - 1#32))) }) ∧
    (s.tmo.fresh.cnt.toNat = 0 →
      exec .qmonTick s = .next { s with flt := { s.flt with tqV := true }, response := some (.error .torque) })

/-- QMON.FRAME (R134) with R141, for every plausibility predicate. A TorqueRequest restarts freshness; a plausible torque
restarts the escalation Timeout and clears the torque flag; an implausible one ticks the escalation Timeout, and is masked
while the tick succeeds and escalated when it fails. Another variant is Torque at once with no Timeout touched; an
undefined selector is IllegalOp and changes no register. -/
def Obligations.QmonFrameChecksTorque : Prop :=
  (∀ torque pos (s : State),
    exec (.qmonFrame 0#3 torque pos) s = .next (
      if Config.plaus pos torque then { s with
        tmo := { s.tmo with fresh := ⟨s.tmo.fresh.rv, s.tmo.fresh.rv⟩, esc := ⟨s.tmo.esc.rv, s.tmo.esc.rv⟩ },
        flt := { s.flt with tqV := false }, response := some (.ok (.sampled false)) }
      else if 0 < s.tmo.esc.cnt.toNat then { s with
        tmo := { s.tmo with fresh := ⟨s.tmo.fresh.rv, s.tmo.fresh.rv⟩, esc := ⟨s.tmo.esc.rv, s.tmo.esc.cnt - 1#32⟩ },
        response := some (.ok (.sampled true)) }
      else { s with
        tmo := { s.tmo with fresh := ⟨s.tmo.fresh.rv, s.tmo.fresh.rv⟩ },
        flt := { s.flt with tqV := true }, response := some (.error .torque) })) ∧
  (∀ v torque pos (s : State), 1 ≤ v.toNat → v.toNat ≤ 4 →
    exec (.qmonFrame v torque pos) s
      = .next { s with flt := { s.flt with tqV := true }, response := some (.error .torque) }) ∧
  (∀ v torque pos (s : State), 5 ≤ v.toNat → exec (.qmonFrame v torque pos) s = .next (raise .illegalOp s))

/-- The liveness and the freshness Timeouts fail exactly when their counts run out: of any number of MMON.TICK (QMON.TICK)
in a row, as many succeed as the counter says and every further one answers Main (Torque) (R129, R133, D38). -/
def Obligations.MonitorTicksFailWhenCountRunsOut : Prop :=
  ∀ (s : State) k,
    (∃ u, runInstrs (List.replicate k .mmonTick) s
      = some ((List.range k).map (fun j =>
          if j < s.tmo.main.cnt.toNat then
            some (Response.ok (.counter (BitVec.ofNat 32 (s.tmo.main.cnt.toNat - 1 - j))))
          else some (Response.error .main)), u) ∧
      u.flt = { s.flt with mainV := s.flt.mainV || decide (s.tmo.main.cnt.toNat < k) }) ∧
    (∃ u, runInstrs (List.replicate k .qmonTick) s
      = some ((List.range k).map (fun j =>
          if j < s.tmo.fresh.cnt.toNat then
            some (Response.ok (.counter (BitVec.ofNat 32 (s.tmo.fresh.cnt.toNat - 1 - j))))
          else some (Response.error .torque)), u) ∧
      u.flt = { s.flt with tqV := s.flt.tqV || decide (s.tmo.fresh.cnt.toNat < k) })

/-! ### The safe-output stage -/

/-- OUT.GET (R142): the state tag is the OR of the three flags; the position out is 0 while it is set and POS otherwise;
the fault reported is Main, then Throttle with its kind, then Torque. Nothing but the response port changes. -/
def Obligations.OutGetReportsFaults : Prop :=
  ∀ s : State,
    (s.flt.mainV = true →
      exec .outGet s = .next { s with response := some (.ok (.output true 0#16 3#2 10#4)) }) ∧
    (s.flt.mainV = false → s.flt.thrV = true →
      exec .outGet s = .next { s with response := some (.ok (.output true 0#16 1#2 s.flt.thrK)) }) ∧
    (s.flt.mainV = false → s.flt.thrV = false → s.flt.tqV = true →
      exec .outGet s = .next { s with response := some (.ok (.output true 0#16 2#2 9#4)) }) ∧
    (s.flt.mainV = false → s.flt.thrV = false → s.flt.tqV = false →
      exec .outGet s = .next { s with response := some (.ok (.output false s.pos 0#2 0#4)) })

/-- R144: the level output is the OR of the three flags, the same value as OUT.GET's state tag; and while it is 1 the
position handed onward is 0 (R140). -/
def Obligations.FaultLevelIsTheStateTag : Prop :=
  ∀ s : State, s.fault = (s.flt.mainV || s.flt.thrV || s.flt.tqV) ∧
    ∃ p src kind, exec .outGet s = .next { s with response := some (.ok (.output s.fault p src kind)) } ∧
      (s.fault = true → p = 0#16)

/-- A monitor that escalates raises the level output in the same step: no escalated fault is dropped (R140, R141). -/
def Obligations.EscalatedFaultsReachTheOutput : Prop :=
  ∀ (i : Instr) (s t : State) e, exec i s = .next t → t.response = some (.error e) →
    (∃ s1 s2, i = .tmonCheck s1 s2) ∨ i = .mmonTick ∨ i = .qmonTick ∨
      (∃ v torque pos, i = .qmonFrame v torque pos ∧ e ≠ .illegalOp) →
    t.fault = true ∧
      ∃ src kind, exec .outGet t = .next { t with response := some (.ok (.output true 0#16 src kind)) } ∧ src ≠ 0#2

/-! ### The whole block -/

/-- R155 (b) and (c): what an operation that ends in an error leaves. For every operation but four, no register changes;
TMON.CHECK leaves POS at 0 and its error's kind in FLT_THR, with the grace Timeout as it was; MMON.TICK and QMON.TICK set
their flag and nothing else; QMON.FRAME sets FLT_TQ and, for a TorqueRequest only, has restarted freshness, and changes
nothing when it is IllegalOp. MAP, TOL and PING never change. (The frame rows, among the operations that change nothing, are
the model's: log 4.) -/
def Obligations.ErrorsLeaveTheirRecord : Prop :=
  ∀ (i : Instr) (s t : State) e, exec i s = .next t → t.response = some (.error e) →
    match i with
    | .tmonCheck _ _ =>
        (e = .sensorOutOfRange ∨ e = .sensorMismatch) ∧
        t = { s with pos := 0#16, flt := { s.flt with thrV := true, thrK := e.code }, response := some (.error e) }
    | .mmonTick => t = { s with flt := { s.flt with mainV := true }, response := some (.error .main) }
    | .qmonTick => t = { s with flt := { s.flt with tqV := true }, response := some (.error .torque) }
    | .qmonFrame v _ _ =>
        if 5 ≤ v.toNat then t = { s with response := some (.error .illegalOp) }
        else t = { s with
          tmo := if v = 0#3 then { s.tmo with fresh := ⟨s.tmo.fresh.rv, s.tmo.fresh.rv⟩ } else s.tmo,
          flt := { s.flt with tqV := true }, response := some (.error .torque) }
    | _ => t = { s with response := some (.error e) }

/-- R26's W entries: an operation leaves every register outside its row as it was; and it never touches the input (the input
is the model's, log 1; the frame rows, which like CAN.DEC write nothing, are log 4). -/
def Obligations.RegistersOutsideTheRowStay : Prop :=
  ∀ (i : Instr) (s t : State), exec i s = .next t →
    (∀ r, r ∉ written Config.params i → t.read r = s.read r) ∧ t.input = s.input

/-- R152: the statuses each operation can return (a frame row has those of CAN.DEC for its identifier, log 4). -/
def Obligations.StatusesArePerOperation : Prop :=
  ∀ (i : Instr) (s t : State), exec i s = .next t →
    ∃ r, t.response = some r ∧ r.status ∈ statuses i

/-- The invariants of R11, R13 and R16 hold after reset. -/
def Obligations.InvariantsHoldAtReset : Prop := State.reset.Inv

/-- Every step keeps the invariants of R11 (MIN ≤ MAX), R13 (CNT ≤ RV) and R16 (FLT_THR.K is a throttle error's code
while FLT_THR.V is set and 0 while it is not), from every state that has them (a step may also be a reset event, an idle
step or a frame word: log 1, 2, 4, 15). -/
def Obligations.EveryStepKeepsInvariants : Prop :=
  ∀ s t : State, s.Inv → step s = .next t → t.Inv

/-- R143: with MAIN_FAULT_STICKY, once the Main flag is set every step but a reset keeps it set; without it, only a ping or
a matching pong clears it (what a step and a reset event are: log 1, 2, 4, 15). -/
def Obligations.MainFaultStaysUntilReset : Prop :=
  ∀ s t : State, s.flt.mainV = true → step s = .next t → (∀ rest, s.input ≠ .reset :: rest) →
    t.flt.mainV = true ∨
      (Config.mainFaultSticky = false ∧ ∃ w rest, s.input = .present w :: rest ∧
        ((decode w = .ok .mmonPing ∧ Config.pingSendResets = true) ∨ decode w = .ok (.mmonPong s.ping)))

/-- A block whose maps are degenerate and whose POS is 0, as after reset, stays so through every step that is not a
MAP.NEW or a THR.NEW, and OUT.GET then hands on position 0 (R171, R103; 96_test_programs.md Q14; what a step is: log 1, 2, 4,
15). -/
def Obligations.UnconfiguredBlockHandsOnZero : Prop :=
  State.reset.Unconfigured ∧
  (∀ s t : State, s.Unconfigured → step s = .next t →
    (∀ w rest i, s.input = .present w :: rest → decode w = .ok i → configuresMap i = false) →
    t.Unconfigured) ∧
  (∀ s : State, s.Unconfigured → ∃ faulted src kind,
    exec .outGet s = .next { s with response := some (.ok (.output faulted 0#16 src kind)) })

/-- R48 and R49 for the packed word. An error is its code in bits 3:0, kind by kind, and nothing above. An OK response carries
0 there, its flag in bit 4, its variant in bits 7:5, and, for a raw frame of at most eight bytes, the identifier, the length
and the payload bytes in their places, and for every other result the four data fields in theirs and 0 in bits 23:8. Which
result goes in which of A, B, C, D and the flag is stated result by result, as R48's table has it. -/
def Obligations.PackedResponseFields : Prop :=
  (∀ e, (Response.error e).pack.toNat = e.code.toNat ∧ 1 ≤ e.code.toNat ∧ e.code.toNat ≤ 11) ∧
  ((Response.error .badDlc).pack = 1#96 ∧ (Response.error .badCrc).pack = 2#96 ∧
    (Response.error .noData).pack = 3#96 ∧ (Response.error .receiveOnly).pack = 4#96 ∧
    (Response.error .unknownFrame).pack = 5#96 ∧ (Response.error .sensorOutOfRange).pack = 6#96 ∧
    (Response.error .sensorMismatch).pack = 7#96 ∧ (Response.error .elapsed).pack = 8#96 ∧
    (Response.error .torque).pack = 9#96 ∧ (Response.error .main).pack = 10#96 ∧
    (Response.error .illegalOp).pack = 11#96) ∧
  (∀ r, field (Response.ok r).pack 0 4 = 0#4 ∧ field (Response.ok r).pack 4 1 = BitVec.ofBool (resultFlag r) ∧
    field (Response.ok r).pack 5 3 = resultVariant r) ∧
  (∀ v id (payload : List Byte), payload.length ≤ 8 →
    field (Response.ok (.frame v id payload)).pack 8 11 = id ∧
    field (Response.ok (.frame v id payload)).pack 19 1 = 0#1 ∧
    (field (Response.ok (.frame v id payload)).pack 20 4).toNat = payload.length ∧
    bytesField (Response.ok (.frame v id payload)).pack 24 8
      = payload ++ List.replicate (8 - payload.length) 0#8) ∧
  (∀ r, (∀ v id payload, r ≠ .frame v id payload) →
    field (Response.ok r).pack 8 16 = 0#16 ∧ field (Response.ok r).pack 24 32 = (resultFields r).a ∧
    field (Response.ok r).pack 56 16 = (resultFields r).b ∧ field (Response.ok r).pack 72 16 = (resultFields r).c ∧
    field (Response.ok r).pack 88 8 = (resultFields r).d) ∧
  (∀ v id (payload : List Byte), field (Response.ok (.frame v id payload)).pack 4 1 = 0#1 ∧
    field (Response.ok (.frame v id payload)).pack 5 3 = match v with
      | .torqueRequest => 0#3
      | .vcmKeepAlive1 => 1#3
      | .vcmKeepAlive2 => 2#3
      | .inverterStatus => 3#3
      | .inverterTemperature => 4#3) ∧
  (∀ value : Byte, (Response.ok (.entry value)).pack = okWord false 0#3 0#32 0#16 0#16 value ∧
    (Response.ok (.crc value)).pack = okWord false 0#3 0#32 0#16 0#16 value) ∧
  (∀ (torque : I16) (counter : BitVec 2), (Response.ok (.message (.torqueRequest torque counter))).pack
    = okWord false 0#3 0#32 torque 0#16 (0#6 ++ counter)) ∧
  (∀ counter : Byte, (Response.ok (.message (.vcmKeepAlive1 counter))).pack = okWord false 1#3 0#32 0#16 0#16 counter) ∧
  (Response.ok (.message .vcmKeepAlive2)).pack = okWord false 2#3 0#32 0#16 0#16 0#8 ∧
  (∀ (millivolt : BitVec 32) (current rpm : I16) (error : Byte),
    (Response.ok (.message (.inverterStatus millivolt current rpm error))).pack
      = okWord false 3#3 millivolt current rpm error) ∧
  (∀ motor inverter : Byte, (Response.ok (.message (.inverterTemperature motor inverter))).pack
    = okWord false 4#3 0#32 0#16 (0#8 ++ inverter) motor) ∧
  (Response.ok .done).pack = okWord false 0#3 0#32 0#16 0#16 0#8 ∧
  (∀ y : Pos, (Response.ok (.mapped (some y))).pack = okWord true 0#3 0#32 y 0#16 0#8) ∧
  (Response.ok (.mapped none)).pack = okWord false 0#3 0#32 0#16 0#16 0#8 ∧
  (∀ p : Pos, (Response.ok (.position p)).pack = okWord false 0#3 0#32 p 0#16 0#8) ∧
  (∀ cnt : Tick, (Response.ok (.counter cnt)).pack = okWord false 0#3 cnt 0#16 0#16 0#8) ∧
  (∀ (p : Pos) masked, (Response.ok (.checked p masked)).pack = okWord masked 0#3 0#32 p 0#16 0#8) ∧
  (∀ value : Ping, (Response.ok (.ping value)).pack = okWord false 0#3 value 0#16 0#16 0#8) ∧
  (∀ matched, (Response.ok (.pong matched)).pack = okWord matched 0#3 0#32 0#16 0#16 0#8) ∧
  (∀ masked, (Response.ok (.sampled masked)).pack = okWord masked 0#3 0#32 0#16 0#16 0#8) ∧
  (∀ faulted (p : Pos) (src : BitVec 2) (kind : BitVec 4), (Response.ok (.output faulted p src kind)).pack
    = okWord faulted 0#3 0#32 p 0#16 (0#2 ++ src ++ kind))
end

