-- ==== Sys2Proof/Laws/Bits.lean ====
section
/-!
SUPPORT. Byte lists and bit fields: packing and unpacking agree, and what a field of a word is as a number.
-/

namespace Sys2Proof

@[simp] theorem unpackBytes_length (n v : Nat) : (unpackBytes n v).length = n := by
  induction n generalizing v with
  | zero => rfl
  | succ n ih => simp [unpackBytes, ih]

/-- A packed list of n bytes is a number below 256 ^ n. -/
theorem packBytes_lt (l : List Byte) : packBytes l < 256 ^ l.length := by
  induction l with
  | nil => simp [packBytes]
  | cons b bs ih =>
    have := b.isLt
    simp only [packBytes, List.length_cons, Nat.pow_succ]
    omega

/-- Unpacking reads back what was packed, whatever stands above it. -/
theorem unpackBytes_packBytes (l : List Byte) (k : Nat) :
    unpackBytes l.length (packBytes l + 256 ^ l.length * k) = l := by
  induction l with
  | nil => rfl
  | cons b bs ih =>
    have hb := b.isLt
    simp only [packBytes, List.length_cons, unpackBytes, Nat.pow_succ]
    have hdiv : (b.toNat + 256 * packBytes bs + 256 ^ bs.length * 256 * k) / 256
        = packBytes bs + 256 ^ bs.length * k := by
      rw [show b.toNat + 256 * packBytes bs + 256 ^ bs.length * 256 * k
        = b.toNat + 256 * (packBytes bs + 256 ^ bs.length * k) by ring]
      omega
    rw [hdiv, ih]
    congr 1
    apply BitVec.eq_of_toNat_eq
    rw [BitVec.toNat_ofNat, show b.toNat + 256 * packBytes bs + 256 ^ bs.length * 256 * k
      = b.toNat + 256 * (packBytes bs + 256 ^ bs.length * k) by ring]
    omega

/-- A field as a number: shifted down and cut to its width. -/
theorem field_toNat {k : Nat} (w : BitVec k) (lo n : Nat) : (field w lo n).toNat = w.toNat / 2 ^ lo % 2 ^ n := by
  simp [field, BitVec.extractLsb'_toNat, Nat.shiftRight_eq_div_pow]

@[simp] theorem bytesField_length {k : Nat} (w : BitVec k) (lo n : Nat) : (bytesField w lo n).length = n := by
  simp [bytesField]

end Sys2Proof
end

