-- ==== Sys2Proof/Laws/State.lean ====
section
/-!
SUPPORT. One lemma per field per update: what each update of the state leaves in each field, so that no later proof
unfolds a record update.
-/

namespace Sys2Proof.Machine

variable (s : State)

/-! `setMap` -/

@[simp] theorem setMap_maps (m : MapSel) (x : SensorMap) : (setMap m x s).maps = s.maps.set m x := rfl
@[simp] theorem setMap_tol (m : MapSel) (x : SensorMap) : (setMap m x s).tol = s.tol := rfl
@[simp] theorem setMap_tmo (m : MapSel) (x : SensorMap) : (setMap m x s).tmo = s.tmo := rfl
@[simp] theorem setMap_ping (m : MapSel) (x : SensorMap) : (setMap m x s).ping = s.ping := rfl
@[simp] theorem setMap_pos (m : MapSel) (x : SensorMap) : (setMap m x s).pos = s.pos := rfl
@[simp] theorem setMap_flt (m : MapSel) (x : SensorMap) : (setMap m x s).flt = s.flt := rfl
@[simp] theorem setMap_response (m : MapSel) (x : SensorMap) : (setMap m x s).response = s.response := rfl
@[simp] theorem setMap_input (m : MapSel) (x : SensorMap) : (setMap m x s).input = s.input := rfl

/-! `setTol` -/

@[simp] theorem setTol_maps (v : Pos) : (setTol v s).maps = s.maps := rfl
@[simp] theorem setTol_tol (v : Pos) : (setTol v s).tol = v := rfl
@[simp] theorem setTol_tmo (v : Pos) : (setTol v s).tmo = s.tmo := rfl
@[simp] theorem setTol_ping (v : Pos) : (setTol v s).ping = s.ping := rfl
@[simp] theorem setTol_pos (v : Pos) : (setTol v s).pos = s.pos := rfl
@[simp] theorem setTol_flt (v : Pos) : (setTol v s).flt = s.flt := rfl
@[simp] theorem setTol_response (v : Pos) : (setTol v s).response = s.response := rfl
@[simp] theorem setTol_input (v : Pos) : (setTol v s).input = s.input := rfl

/-! `setTmo` -/

@[simp] theorem setTmo_maps (t : Slot) (x : Timeout) : (setTmo t x s).maps = s.maps := rfl
@[simp] theorem setTmo_tol (t : Slot) (x : Timeout) : (setTmo t x s).tol = s.tol := rfl
@[simp] theorem setTmo_tmo (t : Slot) (x : Timeout) : (setTmo t x s).tmo = s.tmo.set t x := rfl
@[simp] theorem setTmo_ping (t : Slot) (x : Timeout) : (setTmo t x s).ping = s.ping := rfl
@[simp] theorem setTmo_pos (t : Slot) (x : Timeout) : (setTmo t x s).pos = s.pos := rfl
@[simp] theorem setTmo_flt (t : Slot) (x : Timeout) : (setTmo t x s).flt = s.flt := rfl
@[simp] theorem setTmo_response (t : Slot) (x : Timeout) : (setTmo t x s).response = s.response := rfl
@[simp] theorem setTmo_input (t : Slot) (x : Timeout) : (setTmo t x s).input = s.input := rfl

/-! `setPing` -/

@[simp] theorem setPing_maps (v : Ping) : (setPing v s).maps = s.maps := rfl
@[simp] theorem setPing_tol (v : Ping) : (setPing v s).tol = s.tol := rfl
@[simp] theorem setPing_tmo (v : Ping) : (setPing v s).tmo = s.tmo := rfl
@[simp] theorem setPing_ping (v : Ping) : (setPing v s).ping = v := rfl
@[simp] theorem setPing_pos (v : Ping) : (setPing v s).pos = s.pos := rfl
@[simp] theorem setPing_flt (v : Ping) : (setPing v s).flt = s.flt := rfl
@[simp] theorem setPing_response (v : Ping) : (setPing v s).response = s.response := rfl
@[simp] theorem setPing_input (v : Ping) : (setPing v s).input = s.input := rfl

/-! `setPos` -/

@[simp] theorem setPos_maps (v : Pos) : (setPos v s).maps = s.maps := rfl
@[simp] theorem setPos_tol (v : Pos) : (setPos v s).tol = s.tol := rfl
@[simp] theorem setPos_tmo (v : Pos) : (setPos v s).tmo = s.tmo := rfl
@[simp] theorem setPos_ping (v : Pos) : (setPos v s).ping = s.ping := rfl
@[simp] theorem setPos_pos (v : Pos) : (setPos v s).pos = v := rfl
@[simp] theorem setPos_flt (v : Pos) : (setPos v s).flt = s.flt := rfl
@[simp] theorem setPos_response (v : Pos) : (setPos v s).response = s.response := rfl
@[simp] theorem setPos_input (v : Pos) : (setPos v s).input = s.input := rfl

/-! `setFlt` -/

@[simp] theorem setFlt_maps (f : FaultFlags) : (setFlt f s).maps = s.maps := rfl
@[simp] theorem setFlt_tol (f : FaultFlags) : (setFlt f s).tol = s.tol := rfl
@[simp] theorem setFlt_tmo (f : FaultFlags) : (setFlt f s).tmo = s.tmo := rfl
@[simp] theorem setFlt_ping (f : FaultFlags) : (setFlt f s).ping = s.ping := rfl
@[simp] theorem setFlt_pos (f : FaultFlags) : (setFlt f s).pos = s.pos := rfl
@[simp] theorem setFlt_flt (f : FaultFlags) : (setFlt f s).flt = f := rfl
@[simp] theorem setFlt_response (f : FaultFlags) : (setFlt f s).response = s.response := rfl
@[simp] theorem setFlt_input (f : FaultFlags) : (setFlt f s).input = s.input := rfl

/-! `respond` -/

@[simp] theorem respond_maps (r : Result) : (respond r s).maps = s.maps := rfl
@[simp] theorem respond_tol (r : Result) : (respond r s).tol = s.tol := rfl
@[simp] theorem respond_tmo (r : Result) : (respond r s).tmo = s.tmo := rfl
@[simp] theorem respond_ping (r : Result) : (respond r s).ping = s.ping := rfl
@[simp] theorem respond_pos (r : Result) : (respond r s).pos = s.pos := rfl
@[simp] theorem respond_flt (r : Result) : (respond r s).flt = s.flt := rfl
@[simp] theorem respond_response (r : Result) : (respond r s).response = some (.ok r) := rfl
@[simp] theorem respond_input (r : Result) : (respond r s).input = s.input := rfl

/-! `raise` -/

@[simp] theorem raise_maps (e : ErrorKind) : (raise e s).maps = s.maps := rfl
@[simp] theorem raise_tol (e : ErrorKind) : (raise e s).tol = s.tol := rfl
@[simp] theorem raise_tmo (e : ErrorKind) : (raise e s).tmo = s.tmo := rfl
@[simp] theorem raise_ping (e : ErrorKind) : (raise e s).ping = s.ping := rfl
@[simp] theorem raise_pos (e : ErrorKind) : (raise e s).pos = s.pos := rfl
@[simp] theorem raise_flt (e : ErrorKind) : (raise e s).flt = s.flt := rfl
@[simp] theorem raise_response (e : ErrorKind) : (raise e s).response = some (.error e) := rfl
@[simp] theorem raise_input (e : ErrorKind) : (raise e s).input = s.input := rfl

/-! `restart` -/

@[simp] theorem restart_maps (t : Slot) : (restart t s).maps = s.maps := rfl
@[simp] theorem restart_tol (t : Slot) : (restart t s).tol = s.tol := rfl
@[simp] theorem restart_tmo (t : Slot) : (restart t s).tmo = s.tmo.set t (s.tmo.get t).restart := rfl
@[simp] theorem restart_ping (t : Slot) : (restart t s).ping = s.ping := rfl
@[simp] theorem restart_pos (t : Slot) : (restart t s).pos = s.pos := rfl
@[simp] theorem restart_flt (t : Slot) : (restart t s).flt = s.flt := rfl
@[simp] theorem restart_response (t : Slot) : (restart t s).response = s.response := rfl
@[simp] theorem restart_input (t : Slot) : (restart t s).input = s.input := rfl

/-! `flagUpdate` -/

@[simp] theorem flagUpdate_maps (P : Config.Params) (o : MonitorOutcome) : (flagUpdate P o s).maps = s.maps := rfl
@[simp] theorem flagUpdate_tol (P : Config.Params) (o : MonitorOutcome) : (flagUpdate P o s).tol = s.tol := rfl
@[simp] theorem flagUpdate_tmo (P : Config.Params) (o : MonitorOutcome) : (flagUpdate P o s).tmo = s.tmo := rfl
@[simp] theorem flagUpdate_ping (P : Config.Params) (o : MonitorOutcome) : (flagUpdate P o s).ping = s.ping := rfl
@[simp] theorem flagUpdate_pos (P : Config.Params) (o : MonitorOutcome) : (flagUpdate P o s).pos = s.pos := rfl
@[simp] theorem flagUpdate_flt (P : Config.Params) (o : MonitorOutcome) : (flagUpdate P o s).flt = flagsAfter P o s.flt := rfl
@[simp] theorem flagUpdate_response (P : Config.Params) (o : MonitorOutcome) : (flagUpdate P o s).response = s.response := rfl
@[simp] theorem flagUpdate_input (P : Config.Params) (o : MonitorOutcome) : (flagUpdate P o s).input = s.input := rfl

/-! `presentNext` -/

@[simp] theorem presentNext_maps (w : InputWord) : (presentNext w s).maps = s.maps := rfl
@[simp] theorem presentNext_tol (w : InputWord) : (presentNext w s).tol = s.tol := rfl
@[simp] theorem presentNext_tmo (w : InputWord) : (presentNext w s).tmo = s.tmo := rfl
@[simp] theorem presentNext_ping (w : InputWord) : (presentNext w s).ping = s.ping := rfl
@[simp] theorem presentNext_pos (w : InputWord) : (presentNext w s).pos = s.pos := rfl
@[simp] theorem presentNext_flt (w : InputWord) : (presentNext w s).flt = s.flt := rfl
@[simp] theorem presentNext_response (w : InputWord) : (presentNext w s).response = s.response := rfl
@[simp] theorem presentNext_input (w : InputWord) : (presentNext w s).input = .present w :: s.input := rfl

/-! `rejectWord` -/

@[simp] theorem rejectWord_maps (e : DecodeError) : (rejectWord e s).maps = s.maps := by cases e <;> rfl
@[simp] theorem rejectWord_tol (e : DecodeError) : (rejectWord e s).tol = s.tol := by cases e <;> rfl
@[simp] theorem rejectWord_tmo (e : DecodeError) : (rejectWord e s).tmo = s.tmo := by cases e <;> rfl
@[simp] theorem rejectWord_ping (e : DecodeError) : (rejectWord e s).ping = s.ping := by cases e <;> rfl
@[simp] theorem rejectWord_pos (e : DecodeError) : (rejectWord e s).pos = s.pos := by cases e <;> rfl
@[simp] theorem rejectWord_flt (e : DecodeError) : (rejectWord e s).flt = s.flt := by cases e <;> rfl
@[simp] theorem rejectWord_input (e : DecodeError) : (rejectWord e s).input = s.input := by cases e <;> rfl

/-! `answer` -/

@[simp] theorem answer_maps (o : Except ErrorKind Message) : (answer o s).maps = s.maps := by cases o <;> rfl
@[simp] theorem answer_tol (o : Except ErrorKind Message) : (answer o s).tol = s.tol := by cases o <;> rfl
@[simp] theorem answer_tmo (o : Except ErrorKind Message) : (answer o s).tmo = s.tmo := by cases o <;> rfl
@[simp] theorem answer_ping (o : Except ErrorKind Message) : (answer o s).ping = s.ping := by cases o <;> rfl
@[simp] theorem answer_pos (o : Except ErrorKind Message) : (answer o s).pos = s.pos := by cases o <;> rfl
@[simp] theorem answer_flt (o : Except ErrorKind Message) : (answer o s).flt = s.flt := by cases o <;> rfl
@[simp] theorem answer_input (o : Except ErrorKind Message) : (answer o s).input = s.input := by cases o <;> rfl

end Sys2Proof.Machine
end

