-- ==== Sys2Proof/Laws/Ops.lean ====
section
/-!
SUPPORT. For each shared operation, once, everything it can do: register files, Timeouts, the comparator, the codec's
checks, the flag rule, fetching and stepping.
-/

namespace Sys2Proof.Machine

/-! ### Register files -/

@[simp] theorem mapFile_get_set_same (f : MapFile) (m : MapSel) (x : SensorMap) : (f.set m x).get m = x := by
  cases m <;> rfl

theorem mapFile_get_set_of_ne (f : MapFile) {m m' : MapSel} (x : SensorMap) (h : m ≠ m') :
    (f.set m x).get m' = f.get m' := by
  cases m <;> cases m' <;> first | rfl | exact absurd rfl h

@[simp] theorem timeoutFile_get_set_same (f : TimeoutFile) (t : Slot) (x : Timeout) : (f.set t x).get t = x := by
  cases t <;> rfl

theorem timeoutFile_get_set_of_ne (f : TimeoutFile) {t t' : Slot} (x : Timeout) (h : t ≠ t') :
    (f.set t x).get t' = f.get t' := by
  cases t <;> cases t' <;> first | rfl | exact absurd rfl h

theorem timeoutFile_get_set (f : TimeoutFile) (t t' : Slot) (x : Timeout) :
    (f.set t x).get t' = if t = t' then x else f.get t' := by
  cases t <;> cases t' <;> rfl

theorem mapFile_get_set (f : MapFile) (m m' : MapSel) (x : SensorMap) :
    (f.set m x).get m' = if m = m' then x else f.get m' := by
  cases m <;> cases m' <;> rfl

/-! ### Timeouts -/

theorem timeout_tick_eq_some {x y : Timeout} :
    x.tick = some y ↔ x.cnt ≠ 0#32 ∧ y = { x with cnt := x.cnt - 1#32 } := by
  unfold Timeout.tick
  split
  · rename_i h
    exact ⟨(fun e => nomatch e), fun e => absurd h e.1⟩
  · rename_i h
    rw [Option.some.injEq]
    exact ⟨fun e => ⟨h, e.symm⟩, fun e => e.2.symm⟩

theorem timeout_tick_eq_none {x : Timeout} : x.tick = none ↔ x.cnt = 0#32 := by
  unfold Timeout.tick
  split <;> simp_all

/-- A tick that succeeds decrements the slot's counter and does nothing else (R122). -/
theorem tick_eq_some {t : Slot} {s s' : State} :
    tick t s = some s' ↔
      (s.tmo.get t).cnt ≠ 0#32 ∧ s' = setTmo t { s.tmo.get t with cnt := (s.tmo.get t).cnt - 1#32 } s := by
  simp only [tick, Option.map_eq_some_iff, timeout_tick_eq_some]
  constructor
  · rintro ⟨y, ⟨h, rfl⟩, rfl⟩
    exact ⟨h, rfl⟩
  · rintro ⟨h, rfl⟩
    exact ⟨_, ⟨h, rfl⟩, rfl⟩

/-- A tick fails exactly when the counter is 0 (R122). -/
theorem tick_eq_none {t : Slot} {s : State} : tick t s = none ↔ (s.tmo.get t).cnt = 0#32 := by
  simp [tick, timeout_tick_eq_none]

/-- A counter that is not 0 goes down by one, in natural numbers too: it never wraps (R119). -/
theorem tick_cnt_toNat {c : Tick} (h : c ≠ 0#32) : (c - 1#32).toNat + 1 = c.toNat := by
  have : c.toNat ≠ 0 := fun h0 => h (BitVec.eq_of_toNat_eq h0)
  have := c.isLt
  rw [BitVec.toNat_sub]
  simp
  omega

/-- A tick of a counter above 0 succeeds, and takes one from it in natural numbers too (R117, R119). -/
theorem tick_of_pos {t : Slot} {s : State} (h : 0 < (s.tmo.get t).cnt.toNat) :
    tick t s = some (setTmo t ⟨(s.tmo.get t).rv, (s.tmo.get t).cnt - 1#32⟩ s) ∧
      ((s.tmo.get t).cnt - 1#32).toNat + 1 = (s.tmo.get t).cnt.toNat := by
  have hne : (s.tmo.get t).cnt ≠ 0#32 := fun e => by simp [e] at h
  exact ⟨tick_eq_some.2 ⟨hne, rfl⟩, tick_cnt_toNat hne⟩

/-- A tick of a counter at 0 fails (R117). -/
theorem tick_of_zero {t : Slot} {s : State} (h : (s.tmo.get t).cnt.toNat = 0) : tick t s = none :=
  tick_eq_none.2 (BitVec.eq_of_toNat_eq h)

/-! ### The calibrator and the comparator -/

/-- The bounds of a constructed map are the two arguments, the lesser first (R100). -/
theorem ofBounds_toNat (a b : Raw) :
    (SensorMap.ofBounds a b).min.toNat = min a.toNat b.toNat ∧
      (SensorMap.ofBounds a b).max.toNat = max a.toNat b.toNat := by
  unfold SensorMap.ofBounds
  split <;> constructor <;> simp <;> omega

/-- A map answers a value only for an input of its closed interval, and then the scaled quotient, which fits 16 bits
(R101, R109). -/
theorem map_eq_some {m : SensorMap} {x : Raw} {y : Pos} (h : m.map x = some y) :
    m.min.toNat < m.max.toNat ∧ m.min.toNat ≤ x.toNat ∧ x.toNat ≤ m.max.toNat ∧
      y.toNat = (x.toNat - m.min.toNat) * 65535 / (m.max.toNat - m.min.toNat) := by
  unfold SensorMap.map at h
  split at h
  · cases h
  · rename_i hne
    split at h
    · cases h
    · rename_i hin
      have hne' : m.min.toNat ≠ m.max.toNat := fun e => hne (BitVec.eq_of_toNat_eq e)
      refine ⟨by omega, by omega, by omega, ?_⟩
      have hpos : 0 < m.max.toNat - m.min.toNat := by omega
      have hle : (x.toNat - m.min.toNat) * 65535 / (m.max.toNat - m.min.toNat) ≤ 65535 := by
        apply Nat.div_le_of_le_mul
        exact Nat.mul_le_mul_right _ (by omega)
      cases h
      simp only [BitVec.toNat_ofNat, Config.posMax]
      exact Nat.mod_eq_of_lt (by omega)

/-- A map answers no value exactly when it is degenerate or the input is outside it (R101, R103). -/
theorem map_eq_none {m : SensorMap} {x : Raw} :
    m.map x = none ↔ m.min = m.max ∨ x.toNat < m.min.toNat ∨ m.max.toNat < x.toNat := by
  unfold SensorMap.map
  split
  · simp_all
  · split <;> simp_all

/-- The comparator gives SensorMismatch exactly when the mapped values differ by more than the tolerance (R106). -/
theorem fuse_eq_error {tol p1 p2 : Pos} {e : ThrottleError} (h : fuse tol p1 p2 = .error e) :
    e = .sensorMismatch ∧ tol.toNat < absDiff p1 p2 := by
  unfold fuse at h
  split at h
  · cases h
    exact ⟨rfl, ‹_›⟩
  · cases h

/-- Otherwise it gives the mean (R107). -/
theorem fuse_eq_ok {tol p1 p2 p : Pos} (h : fuse tol p1 p2 = .ok p) :
    absDiff p1 p2 ≤ tol.toNat ∧ p.toNat = (p1.toNat + p2.toNat) / 2 := by
  unfold fuse at h
  split at h
  · cases h
  · cases h
    refine ⟨by omega, ?_⟩
    simp only [BitVec.toNat_ofNat]
    have := p1.isLt
    have := p2.isLt
    exact Nat.mod_eq_of_lt (by omega)

/-- A fused position comes from two sensors in range (R105). -/
theorem fusedPosition_eq_ok {s : State} {s1 s2 : Raw} {p : Pos} (h : fusedPosition s s1 s2 = .ok p) :
    ∃ p1 p2, s.maps.map1.map s1 = some p1 ∧ s.maps.map2.map s2 = some p2 ∧ fuse s.tol p1 p2 = .ok p := by
  unfold fusedPosition at h
  split at h
  · rename_i p1 p2 h1 h2
    exact ⟨p1, p2, h1, h2, h⟩
  · cases h

/-- The position depends on the maps and the tolerance alone. -/
theorem fusedPosition_congr {s t : State} (hm : t.maps = s.maps) (ht : t.tol = s.tol) (s1 s2 : Raw) :
    fusedPosition t s1 s2 = fusedPosition s s1 s2 := by
  simp [fusedPosition, hm, ht]

/-! ### The codec -/

/-- What decoding a payload can answer, check by check (R86). -/
theorem decodePayload_cases (L : Config.Layout) (v : Variant) (hasData : Bool) (len : BitVec 4) (bytes : List Byte) :
    (hasData = false ∧ decodePayload L v hasData len bytes = .error .noData) ∨
    (hasData = true ∧ lengthOk v len = false ∧ decodePayload L v hasData len bytes = .error .badDlc) ∨
    (hasData = true ∧ lengthOk v len = true ∧ crcBearing v = true ∧ crcOk bytes = false ∧
      decodePayload L v hasData len bytes = .error .badCrc) ∨
    (hasData = true ∧ lengthOk v len = true ∧ (crcBearing v = true → crcOk bytes = true) ∧
      decodePayload L v hasData len bytes = .ok (extract L v bytes)) := by
  unfold decodePayload
  cases hasData <;> cases lengthOk v len <;> cases crcBearing v <;> cases crcOk bytes <;> simp

/-! ### Fetching and stepping -/

theorem fetch_nil {s : State} (h : s.input = []) : fetch s = .idle := by
  unfold fetch
  rw [h]

theorem fetch_reset {s : State} {rest : List HostEvent} (h : s.input = .reset :: rest) : fetch s = .reset rest := by
  unfold fetch
  rw [h]

theorem fetch_present {s : State} {w : InputWord} {rest : List HostEvent} (h : s.input = .present w :: rest) :
    fetch s = .word w { s with input := rest } := by
  unfold fetch
  rw [h]

/-- Everything a step can be: idle, a reset, an instruction, or the answer to a rejected word. -/
theorem step_cases (s : State) :
    (s.input = [] ∧ step s = .next s) ∨
    (∃ rest, s.input = .reset :: rest ∧ step s = .next (afterReset rest)) ∨
    (∃ w rest i, s.input = .present w :: rest ∧ decode w = .ok i ∧ step s = exec i { s with input := rest }) ∨
    (∃ w rest e, s.input = .present w :: rest ∧ decode w = .error e ∧
      step s = .next (rejectWord e { s with input := rest })) := by
  match h : s.input with
  | [] => exact .inl ⟨rfl, by simp [step, fetch_nil h]⟩
  | .reset :: rest => exact .inr (.inl ⟨rest, rfl, by simp [step, fetch_reset h]⟩)
  | .present w :: rest =>
    match hd : decode w with
    | .ok i => exact .inr (.inr (.inl ⟨w, rest, i, rfl, hd, by simp [step, fetch_present h, hd]⟩))
    | .error e => exact .inr (.inr (.inr ⟨w, rest, e, rfl, hd, by simp [step, fetch_present h, hd]⟩))

/-! ### Runs -/

/-- A run whose first instruction completes goes on from the state it leaves (R40). -/
theorem runInstrs_cons {i : Instr} {s t : State} (h : exec i s = .next t) (rest : List Instr) :
    runInstrs (i :: rest) s = (runInstrs rest t).map fun o => (t.response :: o.1, o.2) := by
  simp [runInstrs, h]

end Sys2Proof.Machine
end

