-- ==== Sys2Proof/Laws/PerInstr.lean ====
section
/-!
SUPPORT. Statements made per instruction. RowKey: the word that the encoder writes for an instruction lies in the space
of its row of spec/opcode_table.json and carries the row's match value, the opcode in CMD[7:0] or the 11-bit
identifier, whatever the operands.
-/

namespace Sys2Proof.Laws.RowKey

/-- The match value of an instruction's row: R50's opcodes, then the identifiers of R54 to R58. -/
def key : Instr → Nat
  | .crcTbl _ _ => 0x00
  | .crcSum _ _ => 0x01
  | .canEnc _ _ _ => 0x10
  | .canDec _ _ _ _ => 0x11
  | .mapNew _ _ _ => 0x20
  | .mapMap _ _ => 0x21
  | .thrNew _ _ _ _ _ => 0x22
  | .thrPos _ _ => 0x23
  | .tmoNew _ _ => 0x30
  | .tmoTick _ => 0x31
  | .tmoReset _ => 0x32
  | .tmonCheck _ _ => 0x40
  | .mmonTick => 0x41
  | .mmonPing => 0x42
  | .mmonPong _ => 0x43
  | .qmonTick => 0x44
  | .qmonFrame _ _ _ => 0x45
  | .outGet => 0x50
  | .frameTorqueRequest _ _ _ => 0x14D
  | .frameVcmKeepAlive1 _ _ _ => 0x11A
  | .frameVcmKeepAlive2 _ _ _ => 0x50B
  | .frameInverterStatus _ _ _ => 0x1DA
  | .frameInverterTemperature _ _ _ => 0x55A

/-- The space of an instruction's row: true for the CAN_ID space, false for the CMD space. -/
def inCanIdSpace : Instr → Bool
  | .crcTbl _ _ => false
  | .crcSum _ _ => false
  | .canEnc _ _ _ => false
  | .canDec _ _ _ _ => false
  | .mapNew _ _ _ => false
  | .mapMap _ _ => false
  | .thrNew _ _ _ _ _ => false
  | .thrPos _ _ => false
  | .tmoNew _ _ => false
  | .tmoTick _ => false
  | .tmoReset _ => false
  | .tmonCheck _ _ => false
  | .mmonTick => false
  | .mmonPing => false
  | .mmonPong _ => false
  | .qmonTick => false
  | .qmonFrame _ _ _ => false
  | .outGet => false
  | .frameTorqueRequest _ _ _ => true
  | .frameVcmKeepAlive1 _ _ _ => true
  | .frameVcmKeepAlive2 _ _ _ => true
  | .frameInverterStatus _ _ _ => true
  | .frameInverterTemperature _ _ _ => true

/-- The encoding of an instruction is in its row's space and carries its row's match value (R46, R50, R53). -/
def Statement (i : Instr) : Prop :=
  match encode i with
  | .cmd w => inCanIdSpace i = false ∧ (opcodeOf w).toNat = key i
  | .frame w => inCanIdSpace i = true ∧ (field w 0 11).toNat = key i

/-- Fields that all lie at or above bit `n` assemble to a multiple of 2 ^ n. -/
theorem assemble_above (n : Nat) (fields : List (Nat × Nat)) (h : ∀ f ∈ fields, n ≤ f.1) :
    ∃ q, assemble fields = 2 ^ n * q := by
  induction fields with
  | nil => exact ⟨0, rfl⟩
  | cons f rest ih =>
    obtain ⟨q, hq⟩ := ih fun g hg => h g (List.mem_cons_of_mem _ hg)
    obtain ⟨k, hk⟩ := Nat.exists_eq_add_of_le (h f List.mem_cons_self)
    refine ⟨f.2 * 2 ^ k + q, ?_⟩
    simp only [assemble, hq, hk, Nat.pow_add]
    ring

/-- The lowest field of an assembled word reads back, whatever stands above it. -/
theorem lowest_field (k n v : Nat) (fields : List (Nat × Nat)) (hn : n ≤ k) (hv : v < 2 ^ n)
    (h : ∀ f ∈ fields, n ≤ f.1) : (field (BitVec.ofNat k (assemble ((0, v) :: fields))) 0 n).toNat = v := by
  obtain ⟨q, hq⟩ := assemble_above n fields h
  rw [field_toNat, BitVec.toNat_ofNat]
  simp only [assemble, hq, Nat.pow_zero, Nat.mul_one, Nat.div_one]
  rw [Nat.mod_mod_of_dvd _ (Nat.pow_dvd_pow 2 hn), Nat.add_mul_mod_self_left, Nat.mod_eq_of_lt hv]

/-- A command word's opcode field is the opcode it was written with. -/
theorem opcode_of_cmdWord (op : Nat) (fields : List (Nat × Nat)) (hop : op < 256) (h : ∀ f ∈ fields, 8 ≤ f.1) :
    (opcodeOf (BitVec.ofNat 160 (assemble ((0, op) :: fields)))).toNat = op :=
  lowest_field 160 8 op fields (by decide) hop h

/-- A frame word's identifier field is the identifier it was written with. -/
theorem id_of_frameWord (id : Nat) (hasData : Bool) (len : BitVec 4) (bytes : List Byte) (hid : id < 2048) :
    (field (BitVec.ofNat 80 (assemble [(0, id), (11, hasData.toNat), (12, len.toNat), (16, packBytes bytes)]))
      0 11).toNat = id :=
  lowest_field 80 11 id _ (by decide) hid (by simp)

theorem crcTbl (p i : Byte) : Statement (.crcTbl p i) := ⟨rfl, opcode_of_cmdWord _ _ (by decide) (by simp)⟩
theorem crcSum (p : Byte) (bytes : List Byte) : Statement (.crcSum p bytes) :=
  ⟨rfl, opcode_of_cmdWord _ _ (by decide) (by simp)⟩
theorem canEnc (v : BitVec 3) (torque : I16) (counter : Byte) : Statement (.canEnc v torque counter) :=
  ⟨rfl, opcode_of_cmdWord _ _ (by decide) (by simp)⟩
theorem canDec (id : CanId) (hasData : Bool) (len : BitVec 4) (bytes : List Byte) :
    Statement (.canDec id hasData len bytes) := ⟨rfl, opcode_of_cmdWord _ _ (by decide) (by simp)⟩
theorem mapNew (m : MapSel) (a b : Raw) : Statement (.mapNew m a b) :=
  ⟨rfl, opcode_of_cmdWord _ _ (by decide) (by simp)⟩
theorem mapMap (m : MapSel) (x : Raw) : Statement (.mapMap m x) := ⟨rfl, opcode_of_cmdWord _ _ (by decide) (by simp)⟩
theorem thrNew (a1 b1 a2 b2 : Raw) (tol : Pos) : Statement (.thrNew a1 b1 a2 b2 tol) :=
  ⟨rfl, opcode_of_cmdWord _ _ (by decide) (by simp)⟩
theorem thrPos (s1 s2 : Raw) : Statement (.thrPos s1 s2) := ⟨rfl, opcode_of_cmdWord _ _ (by decide) (by simp)⟩
theorem tmoNew (t : BitVec 3) (val : Tick) : Statement (.tmoNew t val) :=
  ⟨rfl, opcode_of_cmdWord _ _ (by decide) (by simp)⟩
theorem tmoTick (t : BitVec 3) : Statement (.tmoTick t) := ⟨rfl, opcode_of_cmdWord _ _ (by decide) (by simp)⟩
theorem tmoReset (t : BitVec 3) : Statement (.tmoReset t) := ⟨rfl, opcode_of_cmdWord _ _ (by decide) (by simp)⟩
theorem tmonCheck (s1 s2 : Raw) : Statement (.tmonCheck s1 s2) := ⟨rfl, opcode_of_cmdWord _ _ (by decide) (by simp)⟩
theorem mmonTick : Statement .mmonTick := ⟨rfl, rfl⟩
theorem mmonPing : Statement .mmonPing := ⟨rfl, rfl⟩
theorem mmonPong (val : Ping) : Statement (.mmonPong val) := ⟨rfl, opcode_of_cmdWord _ _ (by decide) (by simp)⟩
theorem qmonTick : Statement .qmonTick := ⟨rfl, rfl⟩
theorem qmonFrame (v : BitVec 3) (torque : I16) (pos : Pos) : Statement (.qmonFrame v torque pos) :=
  ⟨rfl, opcode_of_cmdWord _ _ (by decide) (by simp)⟩
theorem outGet : Statement .outGet := ⟨rfl, rfl⟩
theorem frameTorqueRequest (hasData : Bool) (len : BitVec 4) (bytes : List Byte) :
    Statement (.frameTorqueRequest hasData len bytes) := ⟨rfl, id_of_frameWord _ _ _ _ (by decide)⟩
theorem frameVcmKeepAlive1 (hasData : Bool) (len : BitVec 4) (bytes : List Byte) :
    Statement (.frameVcmKeepAlive1 hasData len bytes) := ⟨rfl, id_of_frameWord _ _ _ _ (by decide)⟩
theorem frameVcmKeepAlive2 (hasData : Bool) (len : BitVec 4) (bytes : List Byte) :
    Statement (.frameVcmKeepAlive2 hasData len bytes) := ⟨rfl, id_of_frameWord _ _ _ _ (by decide)⟩
theorem frameInverterStatus (hasData : Bool) (len : BitVec 4) (bytes : List Byte) :
    Statement (.frameInverterStatus hasData len bytes) := ⟨rfl, id_of_frameWord _ _ _ _ (by decide)⟩
theorem frameInverterTemperature (hasData : Bool) (len : BitVec 4) (bytes : List Byte) :
    Statement (.frameInverterTemperature hasData len bytes) := ⟨rfl, id_of_frameWord _ _ _ _ (by decide)⟩

end Sys2Proof.Laws.RowKey
end

