-- ==== Sys2Proof/Machine/Asm.lean ====
section
/-!
DEFINITION. The textual form of commands and responses (30_encoding.md R65): `MNEMONIC operand, operand, ...`. It is
notation of the spec's documents; no operation reads it.
-/

namespace Sys2Proof.Machine

/-- A byte as two hexadecimal digits. -/
def hexByte (b : Byte) : String :=
  String.ofList [Nat.digitChar (b.toNat / 16), Nat.digitChar (b.toNat % 16)]

/-- An identifier as three hexadecimal digits with their prefix. -/
def idText (id : CanId) : String :=
  "0x" ++ String.ofList
    [Nat.digitChar (id.toNat / 256), Nat.digitChar (id.toNat / 16 % 16), Nat.digitChar (id.toNat % 16)]

/-- A byte list as `[b0 b1 ...]` in hexadecimal. -/
def byteListText (l : List Byte) : String := "[" ++ " ".intercalate (l.map hexByte) ++ "]"

/-- A variant by its name. -/
def variantText : Variant → String
  | .torqueRequest => "TorqueRequest"
  | .vcmKeepAlive1 => "VcmKeepAlive1"
  | .vcmKeepAlive2 => "VcmKeepAlive2"
  | .inverterStatus => "InverterStatus"
  | .inverterTemperature => "InverterTemperature"

/-- A variant selector: by name, or by number where it is undefined. -/
def variantSelText (v : BitVec 3) : String :=
  match variantOfSel v with
  | some x => variantText x
  | none => v.toNat.repr

/-- A slot selector: by name, or by number where it is undefined. -/
def slotText (t : BitVec 3) : String :=
  match slotOf t with
  | some .free => "T_FREE"
  | some .main => "T_MAIN"
  | some .thr => "T_THR"
  | some .fresh => "T_FRESH"
  | some .esc => "T_ESC"
  | none => t.toNat.repr

/-- A map as 1 or 2. -/
def mapText : MapSel → String
  | .map1 => "1"
  | .map2 => "2"

/-- A payload operand: the bytes it carries, or `nodata`. -/
def payloadText (hasData : Bool) (bytes : List Byte) : String :=
  if hasData then byteListText bytes else "nodata"

/-- A command line: the mnemonic and the operands. -/
def line (mnemonic : String) (operands : List String) : String :=
  if operands.isEmpty then mnemonic else mnemonic ++ " " ++ ", ".intercalate operands

/-- The textual form of a command (R65). -/
def instrText : Instr → String
  | .crcTbl p i => line "CRC.TBL" ["0x" ++ hexByte p, "0x" ++ hexByte i]
  | .crcSum p bytes => line "CRC.SUM" ["0x" ++ hexByte p, byteListText bytes]
  | .canEnc v torque counter =>
      match variantOfSel v with
      | some .torqueRequest => line "CAN.ENC" [variantSelText v, torque.toInt.repr, counter.toNat.repr]
      | some .vcmKeepAlive1 => line "CAN.ENC" [variantSelText v, counter.toNat.repr]
      | _ => line "CAN.ENC" [variantSelText v]
  | .canDec id hasData _ bytes => line "CAN.DEC" [idText id, payloadText hasData bytes]
  | .mapNew m a b => line "MAP.NEW" [mapText m, a.toNat.repr, b.toNat.repr]
  | .mapMap m x => line "MAP.MAP" [mapText m, x.toNat.repr]
  | .thrNew a1 b1 a2 b2 tol =>
      line "THR.NEW" [a1.toNat.repr, b1.toNat.repr, a2.toNat.repr, b2.toNat.repr, tol.toNat.repr]
  | .thrPos s1 s2 => line "THR.POS" [s1.toNat.repr, s2.toNat.repr]
  | .tmoNew t val => line "TMO.NEW" [slotText t, val.toNat.repr]
  | .tmoTick t => line "TMO.TICK" [slotText t]
  | .tmoReset t => line "TMO.RESET" [slotText t]
  | .tmonCheck s1 s2 => line "TMON.CHECK" [s1.toNat.repr, s2.toNat.repr]
  | .mmonTick => "MMON.TICK"
  | .mmonPing => "MMON.PING"
  | .mmonPong val => line "MMON.PONG" [val.toNat.repr]
  | .qmonTick => "QMON.TICK"
  | .qmonFrame v torque pos => line "QMON.FRAME" [variantSelText v, torque.toInt.repr, pos.toNat.repr]
  | .outGet => "OUT.GET"
  | .frameTorqueRequest hasData _ bytes => line "FRAME.TorqueRequest" [payloadText hasData bytes]
  | .frameVcmKeepAlive1 hasData _ bytes => line "FRAME.VcmKeepAlive1" [payloadText hasData bytes]
  | .frameVcmKeepAlive2 hasData _ bytes => line "FRAME.VcmKeepAlive2" [payloadText hasData bytes]
  | .frameInverterStatus hasData _ bytes => line "FRAME.InverterStatus" [payloadText hasData bytes]
  | .frameInverterTemperature hasData _ bytes => line "FRAME.InverterTemperature" [payloadText hasData bytes]

/-- The name of a status (R49); `none` is OK. -/
def statusText : Option ErrorKind → String
  | none => "OK"
  | some .badDlc => "BadDlc"
  | some .badCrc => "BadCrc"
  | some .noData => "NoData"
  | some .receiveOnly => "ReceiveOnly"
  | some .unknownFrame => "UnknownFrame"
  | some .sensorOutOfRange => "SensorOutOfRange"
  | some .sensorMismatch => "SensorMismatch"
  | some .elapsed => "Elapsed"
  | some .torque => "Torque"
  | some .main => "Main"
  | some .illegalOp => "IllegalOp"

/-- The name of a flag result, `1` or `0`. -/
def bitText (b : Bool) : String := if b then "1" else "0"

/-- The textual form of a message's fields. -/
def messageText : Message → String
  | .torqueRequest torque counter =>
      "TorqueRequest torque=" ++ torque.toInt.repr ++ " counter=" ++ counter.toNat.repr
  | .vcmKeepAlive1 counter => "VcmKeepAlive1 counter=" ++ counter.toNat.repr
  | .vcmKeepAlive2 => "VcmKeepAlive2"
  | .inverterStatus millivolt current rpm error =>
      "InverterStatus millivolt=" ++ millivolt.toNat.repr ++ " current=" ++ current.toInt.repr ++ " rpm=" ++
        rpm.toInt.repr ++ " error=0x" ++ hexByte error
  | .inverterTemperature motor inverter =>
      "InverterTemperature motor_temperature=" ++ motor.toNat.repr ++ " inverter_temperature=" ++ inverter.toNat.repr

/-- The named results of a response in R65's order, each after a space. -/
def resultText : Result → String
  | .done => ""
  | .entry value => " entry=0x" ++ hexByte value
  | .crc value => " crc=0x" ++ hexByte value
  | .frame v id payload =>
      " " ++ variantText v ++ " id=" ++ idText id ++ " len=" ++ payload.length.repr ++ " " ++
        byteListText payload
  | .message m => " " ++ messageText m
  | .mapped value => " valid=" ++ bitText value.isSome ++ " B=" ++ (value.getD 0#16).toNat.repr
  | .position p => " B=" ++ p.toNat.repr
  | .counter cnt => " A=" ++ cnt.toNat.repr
  | .checked p masked => " B=" ++ p.toNat.repr ++ " masked=" ++ bitText masked
  | .ping value => " A=" ++ value.toNat.repr
  | .pong matched => " match=" ++ bitText matched
  | .sampled masked => " masked=" ++ bitText masked
  | .output faulted p src kind =>
      " faulted=" ++ bitText faulted ++ " B=" ++ p.toNat.repr ++ " D=0x" ++ hexByte (0#2 ++ src ++ kind)

/-- The textual form of a response: `-> STATUS` and the named results; an error names none (R65). -/
def responseText : Response → String
  | .ok r => "-> OK" ++ resultText r
  | .error e => "-> " ++ statusText (some e)

end Sys2Proof.Machine
end

