-- ==== Sys2Proof/Tests/Slice0.lean ====
section
/-!
SUPPORT. Tests: the well-formedness smoke, every constructor's decoding from a word written out from the spec's
encoding, a few steps against the vectors of 95_test_vectors.md, and for every statement with hypotheses a witness that
meets them.
-/

namespace Sys2Proof.Tests

open Sys2Proof Sys2Proof.Machine

/-! ### Helpers -/

/-- The next state of an outcome. -/
def next? (o : Host.Outcome State Fault Refusal) : Option State :=
  match o with
  | .next s => some s
  | .fault _ => none
  | .refused _ => none

/-- The packed response after an outcome. -/
def rspOf (o : Host.Outcome State Fault Refusal) : Option RspWord := (next? o).map State.rsp

/-- The block with the calibration of vector V22. -/
def calibrated : State :=
  { State.reset with maps := ⟨⟨1000#32, 2000#32⟩, ⟨3000#32, 4000#32⟩⟩, tol := 250#16 }

/-- The reset state with one Timeout. -/
def withTimeout (t : Slot) (rv cnt : Tick) : State := setTmo t ⟨rv, cnt⟩ State.reset

/-- The calibrated block with the grace Timeout of a ThrottleMonitor. -/
def graced (rv cnt : Tick) : State := setTmo .thr ⟨rv, cnt⟩ calibrated

/-- The default parameters of R5, with `PLAUS_TRUE`. -/
def defaults : Config.Params := ⟨true, true, plausTrue⟩

/-! ### Well-formedness: an ill-formed term for each check, refused -/

theorem test_wf_crcSum_sixteen_bytes : Instr.wellFormed (.crcSum 0x07#8 (List.replicate 16 0#8)) = false := by decide
theorem test_wf_crcSum_fifteen_bytes : Instr.wellFormed (.crcSum 0x07#8 (List.replicate 15 0#8)) = true := by decide
theorem test_wf_canEnc_wide_counter : Instr.wellFormed (.canEnc 0#3 0#16 4#8) = false := by decide
theorem test_wf_canEnc_wide_counter_keepAlive : Instr.wellFormed (.canEnc 1#3 0#16 4#8) = true := by decide
theorem test_wf_canDec_missing_byte : Instr.wellFormed (.canDec 0x14D#11 true 2#4 [0#8]) = false := by decide
theorem test_wf_canDec_nine_bytes :
    Instr.wellFormed (.canDec 0x14D#11 true 9#4 (List.replicate 9 0#8)) = false := by decide
theorem test_wf_frameTorqueRequest : Instr.wellFormed (.frameTorqueRequest true 8#4 []) = false := by decide
theorem test_wf_frameVcmKeepAlive1 : Instr.wellFormed (.frameVcmKeepAlive1 true 8#4 []) = false := by decide
theorem test_wf_frameVcmKeepAlive2 : Instr.wellFormed (.frameVcmKeepAlive2 true 0#4 [0#8]) = false := by decide
theorem test_wf_frameInverterStatus : Instr.wellFormed (.frameInverterStatus false 1#4 []) = false := by decide
theorem test_wf_frameInverterTemperature :
    Instr.wellFormed (.frameInverterTemperature true 2#4 [0#8, 0#8, 0#8]) = false := by decide

/-! ### Decoding: command words of 95_test_vectors.md, one for every constructor -/

/-- V5 -/
theorem test_decode_crcTbl : decode (.cmd 0x0000000000000000000000000000000000800700#160) = .ok (.crcTbl 0x07#8 0x80#8) :=
  by rfl
/-- V6, the reserved bytes 1 and 2 sent as aa bb -/
theorem test_decode_crcSum : decode (.cmd 0x0000000000000000000000000000bbaa01010701#160) = .ok (.crcSum 0x07#8 [0x01#8]) :=
  by rfl
/-- V7, reserved counter bits set -/
theorem test_decode_canEnc :
    decode (.cmd 0x000000000000000000000000000000fe03e80010#160) = .ok (.canEnc 0#3 1000#16 2#8) := by rfl
/-- V7, an eight-bit counter -/
theorem test_decode_canEnc_keepAlive :
    decode (.cmd 0x000000000000000000000000000000ff00000110#160) = .ok (.canEnc 1#3 0#16 255#8) := by rfl
/-- V8 -/
theorem test_decode_canDec : decode (.cmd 0x0000000000000000000000000000002d3c2d5a11#160)
    = .ok (.canDec 0x55A#11 true 2#4 [0x3C#8, 0x2D#8]) := by rfl
/-- V21 -/
theorem test_decode_mapNew :
    decode (.cmd 0x00000000000000000000000003e8000007d00120#160) = .ok (.mapNew .map2 2000#32 1000#32) := by rfl
/-- V20 -/
theorem test_decode_mapMap : decode (.cmd 0x0000000000000000000000000000000005dc0021#160) = .ok (.mapMap .map1 1500#32) :=
  by rfl
/-- V22 -/
theorem test_decode_thrNew : decode (.cmd 0x00fa00000fa000000bb8000007d0000003e80022#160)
    = .ok (.thrNew 1000#32 2000#32 3000#32 4000#32 250#16) := by rfl
/-- V22 -/
theorem test_decode_thrPos : decode (.cmd 0x0000000000000000000000000dac000005dd0023#160) = .ok (.thrPos 1501#32 3500#32) :=
  by rfl
/-- V31 -/
theorem test_decode_tmoNew :
    decode (.cmd 0x0000000000000000000000000000ffffffff0430#160) = .ok (.tmoNew 4#3 4294967295#32) := by rfl
/-- V31, the reserved operand sent as deadbeef -/
theorem test_decode_tmoTick : decode (.cmd 0x0000000000000000000000000000deadbeef0031#160) = .ok (.tmoTick 0#3) := by rfl
/-- V31 -/
theorem test_decode_tmoReset : decode (.cmd 0x0000000000000000000000000000000000000132#160) = .ok (.tmoReset 1#3) := by rfl
/-- V40 -/
theorem test_decode_tmonCheck :
    decode (.cmd 0x0000000000000000000000000dac000001f40040#160) = .ok (.tmonCheck 500#32 3500#32) := by rfl
/-- V42 -/
theorem test_decode_mmonTick : decode (.cmd 0x0000000000000000000000000000000000000041#160) = .ok .mmonTick := by rfl
/-- P6 -/
theorem test_decode_mmonPing : decode (.cmd 0x0000000000000000000000000000000000000042#160) = .ok .mmonPing := by rfl
/-- P6 -/
theorem test_decode_mmonPong : decode (.cmd 0x0000000000000000000000000000000000020043#160) = .ok (.mmonPong 2#32) := by rfl
/-- P6 -/
theorem test_decode_qmonTick : decode (.cmd 0x0000000000000000000000000000000000000044#160) = .ok .qmonTick := by rfl
/-- P6 -/
theorem test_decode_qmonFrame :
    decode (.cmd 0x0000000000000000000000007fff000001f40045#160) = .ok (.qmonFrame 0#3 500#16 32767#16) := by rfl
/-- P6 -/
theorem test_decode_outGet : decode (.cmd 0x0000000000000000000000000000000000000050#160) = .ok .outGet := by rfl

/-! Frame words (log 5): identifier, presence in bit 11, length in bits 15:12, then the payload of V8. -/

theorem test_decode_frameTorqueRequest : decode (.frame 0x4a000000008003e8894d#80)
    = .ok (.frameTorqueRequest true 8#4 [0xE8#8, 0x03#8, 0x80#8, 0#8, 0#8, 0#8, 0#8, 0x4A#8]) := by rfl
theorem test_decode_frameVcmKeepAlive1 : decode (.frame 0x030000000000005a891a#80)
    = .ok (.frameVcmKeepAlive1 true 8#4 [0x5A#8, 0#8, 0#8, 0#8, 0#8, 0#8, 0#8, 0x03#8]) := by rfl
theorem test_decode_frameVcmKeepAlive2 : decode (.frame 0x00030201efbeadde7d0b#80)
    = .ok (.frameVcmKeepAlive2 true 7#4 [0xDE#8, 0xAD#8, 0xBE#8, 0xEF#8, 0x01#8, 0x02#8, 0x03#8]) := by rfl
theorem test_decode_frameInverterStatus : decode (.frame 0x00000bb8ff9c02d079da#80)
    = .ok (.frameInverterStatus true 7#4 [0xD0#8, 0x02#8, 0x9C#8, 0xFF#8, 0xB8#8, 0x0B#8, 0x00#8]) := by rfl
theorem test_decode_frameInverterTemperature : decode (.frame 0x0000000000002d3c2d5a#80)
    = .ok (.frameInverterTemperature true 2#4 [0x3C#8, 0x2D#8]) := by rfl

/-- R61: 0xFF is no opcode. -/
theorem test_decode_illegal : decode (.cmd 0x00000000000000000000000000000000000000ff#160) = .error (.illegalOpcode 0xFF#8) :=
  by rfl
/-- R62: 0x7FF is none of the five identifiers. -/
theorem test_decode_unknown : decode (.frame 0x000000000000000007ff#80) = .error (.unknownIdentifier 0x7FF#11) := by rfl

/-- A row of sixteen table bits: the identifier of R54 is a frame, R50's 0x41 a command. -/
theorem test_tableWord_frame : decodeTableWord 16 0x014D = some (.frameTorqueRequest false 0#4 []) := by rfl
theorem test_tableWord_cmd : decodeTableWord 8 0x41 = some .mmonTick := by rfl
/-- The word stored by `withFetchWord` is the next one a step runs. -/
theorem test_withFetchWord : step (State.reset.withFetchWord 160 0x41) = exec .mmonTick State.reset := by rfl

/-! ### U0 -/

/-- V1 (S1): the CRC-8 check value. -/
theorem test_crcSum_check_value :
    checksum [0x31#8, 0x32#8, 0x33#8, 0x34#8, 0x35#8, 0x36#8, 0x37#8, 0x38#8, 0x39#8] 0x07#8 = 0xF4#8 := by decide +kernel
/-- V1 with the polynomial of the vehicle frames. -/
theorem test_crcSum_vehicle_polynomial : rspOf (exec
    (.crcSum 0x85#8 [0x31#8, 0x32#8, 0x33#8, 0x34#8, 0x35#8, 0x36#8, 0x37#8, 0x38#8, 0x39#8]) State.reset)
    = some 0x2a0000000000000000000000#96 := by decide +kernel
/-- V8: the packed InverterStatus, its fields written out. -/
theorem test_okWord : okWord false 3#3 32767500#32 0x8000#16 0x7FFF#16 0xA5#8 = 0xa57fff800001f3fe0c000060#96 := by decide
/-- V5 -/
theorem test_crcTbl : rspOf (exec (.crcTbl 0x85#8 0xC0#8) State.reset) = some 0x0f0000000000000000000000#96 := by decide
/-- V5 -/
theorem test_crcTbl_top_bit : rspOf (exec (.crcTbl 0x07#8 0x80#8) State.reset) = some 0x890000000000000000000000#96 := by
  decide

/-! ### U1 -/

/-- V7 -/
theorem test_canEnc_negative : rspOf (exec (.canEnc 0#3 0xFC18#16 2#8) State.reset) = some 0x00020000000080fc18814d00#96 :=
  by decide +kernel
/-- V7 -/
theorem test_canEnc_keepAlive : rspOf (exec (.canEnc 1#3 0#16 0x5A#8) State.reset) = some 0x00030000000000005a811a20#96 := by
  decide +kernel
/-- V8, filler that is not zero. -/
theorem test_canDec_filler : rspOf (exec
    (.canDec 0x14D#11 true 8#4 [0xE8#8, 0x03#8, 0xBF#8, 0x11#8, 0x22#8, 0x33#8, 0x44#8, 0x15#8]) State.reset)
    = some 0x02000003e800000000000000#96 := by decide +kernel
/-- V10, a length above 8. -/
theorem test_canDec_len_nine : rspOf (exec
    (.canDec 0x14D#11 true 9#4 [0xE8#8, 0x03#8, 0x80#8, 0#8, 0#8, 0#8, 0#8, 0x4A#8]) State.reset)
    = some 0x000000000000000000000001#96 := by decide
/-- V8 -/
theorem test_frameTorqueRequest : rspOf (exec
    (.frameTorqueRequest true 8#4 [0xFF#8, 0xFF#8, 0xC0#8, 0#8, 0#8, 0#8, 0#8, 0xB7#8]) State.reset)
    = some 0x030000ffff00000000000000#96 := by decide +kernel
/-- V9 -/
theorem test_frameVcmKeepAlive1_tampered : rspOf (exec
    (.frameVcmKeepAlive1 true 8#4 [0x5A#8, 0#8, 0#8, 0#8, 0#8, 0#8, 0#8, 0x02#8]) State.reset)
    = some 0x000000000000000000000002#96 := by decide +kernel
/-- V8 -/
theorem test_frameVcmKeepAlive2 : rspOf (exec
    (.frameVcmKeepAlive2 true 7#4 [0xDE#8, 0xAD#8, 0xBE#8, 0xEF#8, 0x01#8, 0x02#8, 0x03#8]) State.reset)
    = some 0x000000000000000000000040#96 := by decide
/-- V8 -/
theorem test_frameInverterStatus : rspOf (exec
    (.frameInverterStatus true 7#4 [0xFF#8, 0xFF#8, 0x00#8, 0x80#8, 0xFF#8, 0x7F#8, 0xA5#8]) State.reset)
    = some 0xa57fff800001f3fe0c000060#96 := by decide
/-- V8 -/
theorem test_frameInverterTemperature : rspOf (exec (.frameInverterTemperature true 2#4 [0x3C#8, 0x2D#8]) State.reset)
    = some 0x3c002d000000000000000080#96 := by decide
/-- V10 -/
theorem test_frameInverterTemperature_short : rspOf (exec (.frameInverterTemperature true 1#4 [0x3C#8]) State.reset)
    = some 0x000000000000000000000001#96 := by decide

/-! ### U2 -/

/-- V21, bounds in reverse order. -/
theorem test_mapNew_reversed : (next? (exec (.mapNew .map2 2000#32 1000#32) State.reset)).map (·.maps.map2)
    = some ⟨1000#32, 2000#32⟩ := by decide
/-- V20 -/
theorem test_mapMap_middle : rspOf (exec (.mapMap .map1 1500#32) calibrated) = some 0x0000007fff00000000000010#96 := by
  decide
/-- V21, a product of more than 32 bits. -/
theorem test_mapMap_wide : rspOf (exec (.mapMap .map1 70000#32)
    { State.reset with maps := ⟨⟨0#32, 100000#32⟩, SensorMap.zero⟩ }) = some 0x000000b33200000000000010#96 := by decide
/-- V22 -/
theorem test_thrNew : (next? (exec (.thrNew 1000#32 2000#32 3000#32 4000#32 250#16) State.reset)).map
    (fun s => (s.maps, s.tol)) = some (calibrated.maps, calibrated.tol) := by decide
/-- V22 -/
theorem test_thrPos_mean : rspOf (exec (.thrPos 1501#32 3500#32) calibrated) = some 0x000000802000000000000000#96 := by decide
/-- V24: a difference of 66 passes a tolerance of 66. -/
theorem test_thrPos_boundary : rspOf (exec (.thrPos 1501#32 3500#32) { calibrated with tol := 66#16 })
    = some 0x000000802000000000000000#96 := by decide

/-! ### U3 -/

/-- V31 -/
theorem test_tmoNew : (next? (exec (.tmoNew 4#3 4294967295#32) State.reset)).map (·.tmo.esc)
    = some ⟨4294967295#32, 4294967295#32⟩ := by decide
/-- V30, the tick that reaches 0 succeeds. -/
theorem test_tmoTick_last : rspOf (exec (.tmoTick 0#3) (withTimeout .free 2#32 1#32)) = some 0x000000000000000000000000#96 :=
  by decide
/-- V30 -/
theorem test_tmoTick_elapsed : rspOf (exec (.tmoTick 0#3) (withTimeout .free 2#32 0#32))
    = some 0x000000000000000000000008#96 := by decide
/-- V30 -/
theorem test_tmoReset : rspOf (exec (.tmoReset 0#3) (withTimeout .free 2#32 0#32)) = some 0x000000000000000002000000#96 := by
  decide

/-! ### U4 and the safe output -/

/-- V40, the first bad reading. -/
theorem test_tmonCheck_masked : (checkThrottle defaults 500#32 3500#32 (graced 2#32 2#32)).rsp
    = 0x000000000000000000000010#96 := by decide
/-- V41: grace 1 used up; the error escalated is this reading's. -/
theorem test_tmonCheck_escalated : (checkThrottle defaults 1505#32 3500#32 (graced 1#32 0#32)).flt
    = ⟨true, 7#4, false, false⟩ := by decide
/-- V42 -/
theorem test_mmonTick_fault : (monitorTick defaults .main .main .mainTickOk .mainTickFault (withTimeout .main 3#32 0#32)).flt
    = ⟨false, 0#4, false, true⟩ := by decide
/-- V42, the wrap of the ping counter. -/
theorem test_mmonPing_wrap : (sendPing defaults { State.reset with ping := 4294967295#32 }).ping = 0#32 := by decide
/-- P3: without PING_SEND_RESETS a ping leaves the liveness Timeout. -/
theorem test_mmonPing_no_reset : (sendPing ⟨false, true, plausTrue⟩ (withTimeout .main 2#32 1#32)).tmo.main = ⟨2#32, 1#32⟩ :=
  by decide
/-- P3: a matching pong clears the Main flag only when it is not sticky. -/
theorem test_mmonPong_clears : (receivePong ⟨true, false, plausTrue⟩ 0#32
    { State.reset with flt := ⟨false, 0#4, false, true⟩ }).flt.mainV = false := by decide
/-- P3: by default the Main flag stays. -/
theorem test_mmonPong_sticky : (receivePong defaults 0#32
    { State.reset with flt := ⟨false, 0#4, false, true⟩ }).flt.mainV = true := by decide
/-- P5 -/
theorem test_qmonTick_fault : rspOf (exec .qmonTick State.reset) = some 0x000000000000000000000009#96 := by decide
/-- P4: an implausible torque of PLAUS_LIN(1000, 100) with the escalation Timeout at 1 is masked. -/
theorem test_qmonFrame_masked : (torqueFrame ⟨true, true, plausLin 1000#15 100#16⟩ 0#3 1000#16 32767#16
    (withTimeout .esc 1#32 1#32)).rsp = 0x000000000000000000000010#96 := by decide
/-- P4: another variant is Torque at once. -/
theorem test_qmonFrame_variant : rspOf (exec (.qmonFrame 1#3 0#16 32767#16) State.reset)
    = some 0x000000000000000000000009#96 := by decide
/-- P5: throttle before torque. -/
theorem test_outGet_throttle : rspOf (exec .outGet { State.reset with flt := ⟨true, 6#4, true, false⟩ })
    = some 0x160000000000000000000010#96 := by decide
/-- P5: Main before throttle. -/
theorem test_outGet_main : rspOf (exec .outGet { State.reset with pos := 9#16, flt := ⟨true, 6#4, false, true⟩ })
    = some 0x3a0000000000000000000010#96 := by decide

/-! ### Text and pseudo-instructions -/

/-- R65 -/
theorem test_text_tmoTick : instrText (.tmoTick 0#3) = "TMO.TICK T_FREE" := by decide +kernel
/-- R65 -/
theorem test_text_elapsed : responseText (.error .elapsed) = "-> Elapsed" := by decide +kernel
/-- R66 -/
theorem test_pseudo_tmonNew : tmonNew 1000#32 2000#32 3000#32 4000#32 250#16 2#32
    = [.thrNew 1000#32 2000#32 3000#32 4000#32 250#16, .tmoNew 2#3 2#32] := by rfl

/-! ### The registers -/

/-- R10: the registers hold 519 bits. -/
theorem test_register_bits : (allRegs.map Reg.width).sum = 519 := by decide

/-! ### Witnesses: the hypotheses of each statement are met -/

theorem witness_resetEvent : ∃ (s : State) (rest : List HostEvent), s.input = .reset :: rest :=
  ⟨{ State.reset with input := [.reset, .reset] }, [.reset], by rfl⟩
theorem witness_idle : ∃ s : State, s.input = [] := ⟨State.reset, by rfl⟩
theorem witness_stepRuns : ∃ (s : State) (w : InputWord) (rest : List HostEvent) (i : Instr),
    s.input = .present w :: rest ∧ decode w = .ok i :=
  ⟨{ State.reset with input := [.present (.cmd 0x50#160)] }, .cmd 0x50#160, [], .outGet, by rfl, by rfl⟩
theorem witness_stepCompletes : ∃ (s : State) (w : InputWord) (rest : List HostEvent), s.input = .present w :: rest :=
  ⟨{ State.reset with input := [.present (.cmd 0xFF#160)] }, .cmd 0xFF#160, [], by rfl⟩
theorem witness_undefined_opcode : ∃ (s : State) (w : CmdWord) (rest : List HostEvent),
    s.input = .present (.cmd w) :: rest ∧ (opcodeOf w).toNat ∉ definedOpcodes :=
  ⟨{ State.reset with input := [.present (.cmd 0x02#160)] }, 0x02#160, [], by rfl, by decide⟩
theorem witness_undefined_selector : ∃ (s : State) (w : CmdWord) (rest : List HostEvent),
    s.input = .present (.cmd w) :: rest ∧ (opcodeOf w).toNat ∈ [0x30, 0x31, 0x32, 0x10, 0x45] ∧ 5 ≤ (field w 8 3).toNat :=
  ⟨{ State.reset with input := [.present (.cmd 0x531#160)] }, 0x531#160, [], by rfl, by decide, by decide⟩
theorem witness_unknownFrame : ∃ (s : State) (w : FrameWord) (rest : List HostEvent),
    s.input = .present (.frame w) :: rest ∧ (field w 0 11).toNat ∉ [0x14D, 0x11A, 0x50B, 0x1DA, 0x55A] :=
  ⟨{ State.reset with input := [.present (.frame 0x14C#80)] }, 0x14C#80, [], by rfl, by decide⟩
theorem witness_wellFormed : ∃ i : Instr, i.wellFormed = true := ⟨.canEnc 0#3 0xFFFF#16 3#8, by decide⟩
theorem witness_decodes : ∃ w i, decode w = .ok i := ⟨.cmd 0x41#160, .mmonTick, by rfl⟩
/-- Two words that differ in a reserved bit of TMO.TICK. -/
theorem witness_reservedBits : agreeOnNamedBits 0x431#160 0x10431#160 ∧ (0x431#160 : CmdWord) ≠ 0x10431#160 := by
  refine ⟨?_, by decide⟩
  intro r hr j h1 h2
  have hr' : r = (0, 7) ∨ r = (8, 10) := by simpa [namedRanges, show (opcodeOf 0x431#160).toNat = 0x31 from rfl] using hr
  rcases hr' with rfl | rfl <;> interval_cases j <;> rfl
theorem witness_selector_undefined : ∃ t : BitVec 3, 5 ≤ t.toNat := ⟨5#3, by decide⟩
theorem witness_checksumLinear : ([1#8] : List Byte).length = ([2#8] : List Byte).length := by rfl
theorem witness_sealedPayload : (List.replicate 8 0#8).length = 8 := by rfl
theorem witness_canEnc_receiveOnly : ∃ v : BitVec 3, v = 3#3 ∨ v = 4#3 := ⟨4#3, .inr rfl⟩
theorem witness_canEnc_undefined : ∃ v : BitVec 3, 5 ≤ v.toNat := ⟨5#3, by decide⟩
/-- An unknown identifier, then the boundaries of the lengths. -/
theorem witness_canDec_unknown : (0x14C#11 : CanId).toNat ∉ [0x14D, 0x11A, 0x50B, 0x1DA, 0x55A] := by decide
theorem witness_canDec_temperature_bounds :
    (2 ≤ (2#4 : BitVec 4).toNat ∧ (2#4 : BitVec 4).toNat ≤ 8) ∧ (2 ≤ (8#4 : BitVec 4).toNat ∧ (8#4 : BitVec 4).toNat ≤ 8) ∧
      ¬ (2 ≤ (1#4 : BitVec 4).toNat) ∧ ¬ ((9#4 : BitVec 4).toNat ≤ 8) := by decide
theorem witness_canDec_crc : checksum [0xE8#8, 0x03#8, 0x80#8, 0#8, 0#8, 0#8, 0#8] 0x85#8 = 0x4A#8 := by decide +kernel
theorem witness_canDec_rest : (List.replicate 6 0#8).length ≤ 6 ∧ ([] : List Byte).length ≤ 6 := by decide
theorem witness_failedDecode : ∃ t, exec (.canDec 0#11 true 0#4 []) State.reset = .next t := ⟨_, rfl⟩
theorem witness_tamper :
    let bytes := [0xE8#8, 0x03#8, 0x80#8, 0#8, 0#8, 0#8, 0#8, 0x4A#8]
    bytes.length = 8 ∧ checksum (bytes.take 7) 0x85#8 = memRead8 bytes 7 ∧ (0 < 64 ∧ 63 < 64 ∧ (0 : Nat) ≠ 63) ∧ 10 < 11 := by
  decide +kernel
theorem witness_stateless : ofStatelessUnit (.crcTbl 0x07#8 1#8) = true := by rfl
theorem witness_map : (⟨1000#32, 2000#32⟩ : SensorMap).min.toNat < (⟨1000#32, 2000#32⟩ : SensorMap).max.toNat := by decide
theorem witness_map_points : 1000 ≤ (1000#32 : Raw).toNat ∧ (1000#32 : Raw).toNat ≤ (2000#32 : Raw).toNat ∧
    (2000#32 : Raw).toNat ≤ 2000 := by decide
theorem witness_thrPos_range : calibrated.maps.map1.map 999#32 = none ∧ calibrated.maps.map2.map 4001#32 = none := by decide
/-- A difference of 66 against tolerances of 65 and 66. -/
theorem witness_thrPos_tolerance : calibrated.maps.map1.map 1501#32 = some 32833#16 ∧
    calibrated.maps.map2.map 3500#32 = some 32767#16 ∧
    65 < max (32833#16 : Pos).toNat (32767#16 : Pos).toNat - min (32833#16 : Pos).toNat (32767#16 : Pos).toNat ∧
    max (32833#16 : Pos).toNat (32767#16 : Pos).toNat - min (32833#16 : Pos).toNat (32767#16 : Pos).toNat ≤ 66 := by decide
theorem witness_slot : slotOf 0#3 = some .free ∧ slotOf 4#3 = some .esc := by decide
theorem witness_tmoTick_counts : 0 < ((withTimeout .free 1#32 1#32).tmo.get .free).cnt.toNat := by decide
theorem witness_tmoTick_elapsed : ((withTimeout .free 1#32 0#32).tmo.get .free).cnt.toNat = 0 := by decide
theorem witness_exactlyN : ∃ s0, slotOf 0#3 = some .free ∧ exec (.tmoNew 0#3 2#32) State.reset = .next s0 :=
  ⟨_, by rfl, rfl⟩
theorem witness_tmonCheck_good : fusedPosition (graced 2#32 0#32) 1500#32 3500#32 = .ok 32767#16 := by rfl
theorem witness_tmonCheck_masked : fusedPosition (graced 2#32 1#32) 500#32 3500#32 = .error .sensorOutOfRange ∧
    0 < (graced 2#32 1#32).tmo.thr.cnt.toNat := ⟨by rfl, by decide⟩
theorem witness_tmonCheck_escalated : fusedPosition (graced 2#32 0#32) 1505#32 3500#32 = .error .sensorMismatch ∧
    (graced 2#32 0#32).tmo.thr.cnt.toNat = 0 := ⟨by rfl, by decide⟩
/-- Three bad readings of both kinds, against a grace counter of 3 (all masked) and of 2 (the last escalated). -/
theorem witness_grace : ∃ (readings : List (Raw × Raw)) (e : Raw × Raw → ThrottleError), readings ≠ [] ∧
    (∀ r ∈ readings, fusedPosition (graced 3#32 3#32) r.1 r.2 = .error (e r)) ∧
    (∀ r ∈ readings, fusedPosition (graced 3#32 2#32) r.1 r.2 = .error (e r)) ∧
    readings.length ≤ (graced 3#32 3#32).tmo.thr.cnt.toNat ∧ (graced 3#32 2#32).tmo.thr.cnt.toNat < readings.length ∧
    readings.getLast? = some (500#32, 3500#32) ∧ e (500#32, 3500#32) = .sensorOutOfRange ∧
    e (1505#32, 3500#32) = .sensorMismatch :=
  ⟨[(500#32, 3500#32), (1505#32, 3500#32), (500#32, 3500#32)],
    fun r => if r.1 = 500#32 then .sensorOutOfRange else .sensorMismatch,
    List.cons_ne_nil _ _,
    List.forall_mem_cons.2 ⟨by rfl, List.forall_mem_cons.2 ⟨by rfl, List.forall_mem_singleton.2 (by rfl)⟩⟩,
    List.forall_mem_cons.2 ⟨by rfl, List.forall_mem_cons.2 ⟨by rfl, List.forall_mem_singleton.2 (by rfl)⟩⟩,
    by decide, by decide, rfl, rfl, rfl⟩
theorem witness_mmonTick : 0 < (withTimeout .main 1#32 1#32).tmo.main.cnt.toNat ∧
    (withTimeout .main 1#32 0#32).tmo.main.cnt.toNat = 0 := by decide
theorem witness_mmonPong : (0#32 : Ping) = State.reset.ping ∧ (1#32 : Ping) ≠ State.reset.ping := by decide
theorem witness_qmonTick : 0 < (withTimeout .fresh 1#32 1#32).tmo.fresh.cnt.toNat ∧
    (withTimeout .fresh 1#32 0#32).tmo.fresh.cnt.toNat = 0 := by decide
theorem witness_qmonFrame : (1 ≤ (1#3 : BitVec 3).toNat ∧ (1#3 : BitVec 3).toNat ≤ 4) ∧
    (1 ≤ (4#3 : BitVec 3).toNat ∧ (4#3 : BitVec 3).toNat ≤ 4) ∧ 5 ≤ (5#3 : BitVec 3).toNat := by decide
theorem witness_outGet_main : ({ State.reset with flt := ⟨true, 6#4, true, true⟩ } : State).flt.mainV = true := by rfl
theorem witness_outGet_throttle : ({ State.reset with flt := ⟨true, 6#4, true, false⟩ } : State).flt.mainV = false ∧
    ({ State.reset with flt := ⟨true, 6#4, true, false⟩ } : State).flt.thrV = true := by decide
theorem witness_outGet_torque : ({ State.reset with flt := ⟨false, 0#4, true, false⟩ } : State).flt.mainV = false ∧
    ({ State.reset with flt := ⟨false, 0#4, true, false⟩ } : State).flt.thrV = false ∧
    ({ State.reset with flt := ⟨false, 0#4, true, false⟩ } : State).flt.tqV = true := by decide
theorem witness_outGet_none : State.reset.flt.mainV = false ∧ State.reset.flt.thrV = false ∧ State.reset.flt.tqV = false := by
  decide
theorem witness_faultLevel : ({ State.reset with flt := ⟨false, 0#4, true, false⟩ } : State).fault = true := by rfl
theorem witness_escalated_throttle : ∃ t, exec (.tmonCheck 500#32 3500#32) (graced 2#32 0#32) = .next t ∧
    t.response = some (.error .sensorOutOfRange) := ⟨_, rfl, by rfl⟩
theorem witness_escalated_main : ∃ t, exec .mmonTick State.reset = .next t ∧ t.response = some (.error .main) :=
  ⟨_, rfl, by rfl⟩
theorem witness_escalated_torque : ∃ t, exec .qmonTick State.reset = .next t ∧ t.response = some (.error .torque) :=
  ⟨_, rfl, by rfl⟩
theorem witness_escalated_frame : ∃ t, exec (.qmonFrame 1#3 0#16 0#16) State.reset = .next t ∧
    t.response = some (.error .torque) ∧ ErrorKind.torque ≠ .illegalOp := ⟨_, rfl, by rfl, by decide⟩
theorem witness_error_other : ∃ t, exec (.thrPos 0#32 0#32) State.reset = .next t ∧
    t.response = some (.error .sensorOutOfRange) := ⟨_, rfl, by rfl⟩
theorem witness_error_frame_illegal : ∃ t, exec (.qmonFrame 5#3 0#16 0#16) State.reset = .next t ∧
    t.response = some (.error .illegalOp) := ⟨_, rfl, by rfl⟩
theorem witness_row : ∃ t, exec (.mapNew .map1 1#32 2#32) State.reset = .next t ∧
    Reg.tol ∉ written Config.params (.mapNew .map1 1#32 2#32) := ⟨_, rfl, by decide⟩
theorem witness_statuses : ∃ t, exec (.tmoTick 0#3) State.reset = .next t := ⟨_, rfl⟩
/-- A state that meets the invariants and takes a step: its throttle flag set and a command to come. -/
theorem witness_invariants : ∃ s t : State, s.Inv ∧ s.flt.thrV = true ∧ step s = .next t := by
  refine ⟨{ calibrated with flt := ⟨true, 6#4, false, false⟩, input := [.present (.cmd 0x50#160)] }, _, ⟨?_, ?_, ?_⟩, rfl, rfl⟩
  · intro m
    cases m <;> simp [SensorMap.normalised, calibrated, MapFile.get]
  · intro t
    cases t <;> exact Nat.le_refl _
  · exact ⟨.sensorOutOfRange, rfl⟩
theorem witness_mainFault : ∃ s t : State, s.flt.mainV = true ∧ step s = .next t ∧ (∀ rest, s.input ≠ .reset :: rest) :=
  ⟨{ State.reset with flt := ⟨false, 0#4, false, true⟩, input := [.present (.cmd 0x50#160)] }, _, rfl, rfl, by simp⟩
theorem witness_unconfigured : ∃ s t : State, s.Unconfigured ∧ step s = .next t ∧
    (∀ w rest i, s.input = .present w :: rest → decode w = .ok i → configuresMap i = false) := by
  refine ⟨{ State.reset with input := [.present (.cmd 0x50#160)] }, _, ⟨?_, rfl⟩, rfl, ?_⟩
  · intro m
    cases m <;> rfl
  · intro w rest i h hd
    cases h
    cases hd
    rfl
theorem witness_packed_frame : (List.replicate 8 0#8).length ≤ 8 := by decide
theorem witness_packed_other : ∀ v id payload, Result.done ≠ .frame v id payload := by simp

end Sys2Proof.Tests
end

section
/-!
PROOFS. The statements of 00_scope.md: what one step of the block is.
-/

namespace Sys2Proof.Machine

/-- Settles O4: the step takes the presented word from the input (`fetch_present`, R17), the decoder answers an
instruction, and of the step's arms the one that runs it is left. -/
theorem stepRunsDecodedInstruction : Obligations.StepRunsDecodedInstruction := by
  intro s w rest i hinput hdecode
  have hfetch : fetch s = .word w { s with input := rest } := fetch_present hinput
  simp only [step, hfetch, hdecode]

end Sys2Proof.Machine
end

section
/-!
PROOFS. What an operation can do to the registers, said once for all 23 instructions: it is a chain of the primitive
updates of 00_scope.md R8 and 43_timeout.md R122, each of a register that its row of 10_state.md R26 marks as written
(`exec_updatesWithin`). What every such update keeps, every operation keeps.
-/

namespace Sys2Proof.Machine

/-! ### What an update leaves in the other registers -/

@[simp] theorem read_response (s : State) (o : Option Response) (r : Reg) :
    ({ s with response := o } : State).read r = s.read r := by
  cases r <;> rfl

theorem read_setMap_of_ne {s : State} {m : MapSel} {x : SensorMap} {r : Reg} (hmin : r ≠ .mapMin m)
    (hmax : r ≠ .mapMax m) : (setMap m x s).read r = s.read r := by
  cases r with
  | mapMin m' =>
    have hne : m ≠ m' := fun h => hmin (h ▸ rfl)
    simp only [State.read, setMap_maps, mapFile_get_set_of_ne _ _ hne]
  | mapMax m' =>
    have hne : m ≠ m' := fun h => hmax (h ▸ rfl)
    simp only [State.read, setMap_maps, mapFile_get_set_of_ne _ _ hne]
  | _ => rfl

theorem read_setTol_of_ne {s : State} {v : Pos} {r : Reg} (h : r ≠ .tol) : (setTol v s).read r = s.read r := by
  cases r with
  | tol => exact absurd rfl h
  | _ => rfl

theorem read_setTmo_of_ne {s : State} {t : Slot} {x : Timeout} {r : Reg} (hrv : r ≠ .rv t) (hcnt : r ≠ .cnt t) :
    (setTmo t x s).read r = s.read r := by
  cases r with
  | rv t' =>
    have hne : t ≠ t' := fun h => hrv (h ▸ rfl)
    simp only [State.read, setTmo_tmo, timeoutFile_get_set_of_ne _ _ hne]
  | cnt t' =>
    have hne : t ≠ t' := fun h => hcnt (h ▸ rfl)
    simp only [State.read, setTmo_tmo, timeoutFile_get_set_of_ne _ _ hne]
  | _ => rfl

/-- A Timeout stored with its own reset value changes CNT alone: the ticks and restarts of R122. -/
theorem read_setTmo_of_sameRv {s : State} {t : Slot} {x : Timeout} {r : Reg} (hx : x.rv = (s.tmo.get t).rv)
    (hcnt : r ≠ .cnt t) : (setTmo t x s).read r = s.read r := by
  by_cases hrv : r = .rv t
  · simp [hrv, State.read, hx]
  · exact read_setTmo_of_ne hrv hcnt

theorem read_tick_of_ne {s s' : State} {t : Slot} {r : Reg} (htick : tick t s = some s') (hcnt : r ≠ .cnt t) :
    s'.read r = s.read r := by
  obtain ⟨-, rfl⟩ := tick_eq_some.1 htick
  refine read_setTmo_of_sameRv ?_ hcnt
  rfl

theorem read_restart_of_ne {s : State} {t : Slot} {r : Reg} (hcnt : r ≠ .cnt t) :
    (restart t s).read r = s.read r := by
  refine read_setTmo_of_sameRv ?_ hcnt
  rfl

theorem read_setPing_of_ne {s : State} {v : Ping} {r : Reg} (h : r ≠ .ping) : (setPing v s).read r = s.read r := by
  cases r with
  | ping => exact absurd rfl h
  | _ => rfl

theorem read_setPos_of_ne {s : State} {v : Pos} {r : Reg} (h : r ≠ .pos) : (setPos v s).read r = s.read r := by
  cases r with
  | pos => exact absurd rfl h
  | _ => rfl

/-- The flag registers that R141's row for an outcome may change. -/
def flagsWritten (P : Config.Params) : MonitorOutcome → List Reg
  | .checkGood => [.fltThrV, .fltThrK]
  | .checkError _ => [.fltThrV, .fltThrK]
  | .mainTickFault => [.fltMainV]
  | .pingSent => if P.mainFaultSticky || !P.pingSendResets then [] else [.fltMainV]
  | .pongMatched => if P.mainFaultSticky then [] else [.fltMainV]
  | .torqueTickFault => [.fltTqV]
  | .frameGood => [.fltTqV]
  | .frameFault => [.fltTqV]
  | .checkMasked => []
  | .mainTickOk => []
  | .pongUnmatched => []
  | .torqueTickOk => []
  | .frameMasked => []
  | .frameIllegal => []

/-- A flag outside the outcome's list keeps its value. -/
theorem flagsAfter_of_not_mem (P : Config.Params) (o : MonitorOutcome) (f : FaultFlags) :
    (.fltThrV ∉ flagsWritten P o → (flagsAfter P o f).thrV = f.thrV) ∧
    (.fltThrK ∉ flagsWritten P o → (flagsAfter P o f).thrK = f.thrK) ∧
    (.fltTqV ∉ flagsWritten P o → (flagsAfter P o f).tqV = f.tqV) ∧
    (.fltMainV ∉ flagsWritten P o → (flagsAfter P o f).mainV = f.mainV) := by
  cases o with
  | pingSent =>
    by_cases h : (P.mainFaultSticky || !P.pingSendResets) = true <;> simp [flagsAfter, flagsWritten, h]
  | pongMatched =>
    by_cases h : P.mainFaultSticky = true <;> simp [flagsAfter, flagsWritten, h]
  | _ => simp [flagsAfter, flagsWritten]

theorem read_flagUpdate_of_not_mem {P : Config.Params} {o : MonitorOutcome} {s : State} {r : Reg}
    (h : r ∉ flagsWritten P o) : (flagUpdate P o s).read r = s.read r := by
  obtain ⟨hthrV, hthrK, htqV, hmainV⟩ := flagsAfter_of_not_mem P o s.flt
  cases r with
  | fltThrV => simp only [State.read, flagUpdate_flt, hthrV h]
  | fltThrK => simp only [State.read, flagUpdate_flt, hthrK h]
  | fltTqV => simp only [State.read, flagUpdate_flt, htqV h]
  | fltMainV => simp only [State.read, flagUpdate_flt, hmainV h]
  | _ => rfl

/-! ### Chains of updates -/

/-- `UpdatesWithin W s t`: the block gets from `s` to `t` by the primitive updates its operations are made of, each of
registers in `W`; the response port may be written too. -/
inductive UpdatesWithin (W : List Reg) (s : State) : State → Prop where
  /-- nothing is updated -/
  | refl : UpdatesWithin W s s
  /-- the response port -/
  | answered {t : State} (r : Response) (h : UpdatesWithin W s t) : UpdatesWithin W s { t with response := some r }
  /-- `MAP[m]`, always from two bounds (R100, R104) -/
  | mapStored {t : State} (m : MapSel) (a b : Raw) (hmin : .mapMin m ∈ W) (hmax : .mapMax m ∈ W)
      (h : UpdatesWithin W s t) : UpdatesWithin W s (setMap m (SensorMap.ofBounds a b) t)
  /-- `TOL` (R104) -/
  | tolStored {t : State} (v : Pos) (hW : .tol ∈ W) (h : UpdatesWithin W s t) : UpdatesWithin W s (setTol v t)
  /-- a Timeout constructed (R116) -/
  | constructed {t : State} (slot : Slot) (val : Tick) (hrv : .rv slot ∈ W) (hcnt : .cnt slot ∈ W)
      (h : UpdatesWithin W s t) : UpdatesWithin W s (setTmo slot (Timeout.ofReset val) t)
  /-- a tick that succeeds (R122) -/
  | ticked {t u : State} {slot : Slot} (htick : tick slot t = some u) (hcnt : .cnt slot ∈ W)
      (h : UpdatesWithin W s t) : UpdatesWithin W s u
  /-- a restart (R122) -/
  | restarted {t : State} (slot : Slot) (hcnt : .cnt slot ∈ W) (h : UpdatesWithin W s t) :
      UpdatesWithin W s (restart slot t)
  /-- `PING` (R130) -/
  | pinged {t : State} (v : Ping) (hW : .ping ∈ W) (h : UpdatesWithin W s t) : UpdatesWithin W s (setPing v t)
  /-- `POS` (R127) -/
  | positioned {t : State} (v : Pos) (hW : .pos ∈ W) (h : UpdatesWithin W s t) : UpdatesWithin W s (setPos v t)
  /-- the flag update (R141) -/
  | flagged {t : State} (P : Config.Params) (o : MonitorOutcome) (hW : flagsWritten P o ⊆ W)
      (h : UpdatesWithin W s t) : UpdatesWithin W s (flagUpdate P o t)

namespace UpdatesWithin

variable {W : List Reg} {s t : State}

theorem responded (r : Result) (h : UpdatesWithin W s t) : UpdatesWithin W s (respond r t) := h.answered (.ok r)

theorem raised (e : ErrorKind) (h : UpdatesWithin W s t) : UpdatesWithin W s (raise e t) := h.answered (.error e)

/-- Registers outside `W` read as before. -/
theorem read_eq (h : UpdatesWithin W s t) {r : Reg} (hr : r ∉ W) : t.read r = s.read r := by
  have ne_of_mem {r' : Reg} (hW : r' ∈ W) : r ≠ r' := fun e => hr (e ▸ hW)
  induction h with
  | refl => rfl
  | answered _ _ ih => rw [read_response, ih]
  | mapStored _ _ _ hmin hmax _ ih => rw [read_setMap_of_ne (ne_of_mem hmin) (ne_of_mem hmax), ih]
  | tolStored _ hW _ ih => rw [read_setTol_of_ne (ne_of_mem hW), ih]
  | constructed _ _ hrv hcnt _ ih => rw [read_setTmo_of_ne (ne_of_mem hrv) (ne_of_mem hcnt), ih]
  | ticked htick hcnt _ ih => rw [read_tick_of_ne htick (ne_of_mem hcnt), ih]
  | restarted _ hcnt _ ih => rw [read_restart_of_ne (ne_of_mem hcnt), ih]
  | pinged _ hW _ ih => rw [read_setPing_of_ne (ne_of_mem hW), ih]
  | positioned _ hW _ ih => rw [read_setPos_of_ne (ne_of_mem hW), ih]
  | flagged _ _ hW _ ih => rw [read_flagUpdate_of_not_mem fun hmem => hr (hW hmem), ih]

/-- No update takes from the input or adds to it (R17). -/
theorem input_eq (h : UpdatesWithin W s t) : t.input = s.input := by
  induction h with
  | ticked htick _ _ ih =>
    obtain ⟨-, rfl⟩ := tick_eq_some.1 htick
    exact ih
  | refl => rfl
  | _ => assumption

end UpdatesWithin

/-! ### The operations of the units without state -/

/-- Answering a decoded message or an error is one response, whatever the state. -/
theorem answer_eq_response (o : Except ErrorKind Message) :
    ∃ r : Response, ∀ s, answer o s = { s with response := some r } := by
  cases o with
  | ok m => exact ⟨.ok (.message m), fun _ => rfl⟩
  | error e => exact ⟨.error e, fun _ => rfl⟩

/-- CAN.ENC is one response, whatever the state (R81). -/
theorem execCanEnc_eq_response (v : BitVec 3) (torque : I16) (counter : Byte) :
    ∃ r : Response, ∀ s, execCanEnc v torque counter s = .next { s with response := some r } := by
  unfold execCanEnc
  rcases variantOfSel v with _ | variant
  · exact ⟨.error .illegalOp, fun _ => rfl⟩
  · cases variant <;> exact ⟨_, fun _ => rfl⟩

/-- An operation of U0 or U1 is a function of its operands alone: one response serves every state (R19, R20). -/
theorem exec_of_statelessUnit {i : Instr} (h : ofStatelessUnit i = true) :
    ∃ r : Response, ∀ s, exec i s = .next { s with response := some r } := by
  have of_answer (o : Except ErrorKind Message) (ho : ∀ s, exec i s = .next (answer o s)) :
      ∃ r : Response, ∀ s, exec i s = .next { s with response := some r } := by
    obtain ⟨r, hr⟩ := answer_eq_response o
    exact ⟨r, fun s => by rw [ho, hr]⟩
  cases i with
  | crcTbl | crcSum => exact ⟨_, fun _ => rfl⟩
  | canEnc v torque counter => exact execCanEnc_eq_response v torque counter
  | canDec | frameTorqueRequest | frameVcmKeepAlive1 | frameVcmKeepAlive2 | frameInverterStatus
  | frameInverterTemperature => exact of_answer _ fun _ => rfl
  | _ => cases h

/-! ### The monitors' operations, for every value of the open parameters -/

/-- A monitor's tick updates its own slot's counter and the flags its two outcomes may change (R129, R133). -/
theorem monitorTick_updatesWithin {W : List Reg} {P : Config.Params} {slot : Slot} {good bad : MonitorOutcome}
    (e : ErrorKind) (s : State) (hcnt : .cnt slot ∈ W) (hgood : flagsWritten P good ⊆ W)
    (hbad : flagsWritten P bad ⊆ W) : UpdatesWithin W s (monitorTick P slot e good bad s) := by
  unfold monitorTick
  split
  next htick => exact .responded _ (.flagged _ _ hgood (.ticked htick hcnt .refl))
  next => exact .raised _ (.flagged _ _ hbad .refl)

theorem checkThrottle_updatesWithin (P : Config.Params) (s1 s2 : Raw) (s : State) :
    UpdatesWithin (written P (.tmonCheck s1 s2)) s (checkThrottle P s1 s2 s) := by
  have hcnt : .cnt .thr ∈ written P (.tmonCheck s1 s2) := by simp [written]
  have hpos : .pos ∈ written P (.tmonCheck s1 s2) := by simp [written]
  unfold checkThrottle
  split
  next =>
    exact .responded _ (.flagged _ _ (by simp [flagsWritten, written]) (.positioned _ hpos (.restarted _ hcnt .refl)))
  next =>
    split
    next htick =>
      exact .responded _ (.flagged _ _ (by simp [flagsWritten, written]) (.positioned _ hpos (.ticked htick hcnt .refl)))
    next => exact .raised _ (.flagged _ _ (by simp [flagsWritten, written]) (.positioned _ hpos .refl))

theorem sendPing_updatesWithin (P : Config.Params) (s : State) :
    UpdatesWithin (written P .mmonPing) s (sendPing P s) := by
  have hping : .ping ∈ written P .mmonPing := by simp [written]
  have hflags : flagsWritten P .pingSent ⊆ written P .mmonPing := by
    cases hr : P.pingSendResets <;> cases hs : P.mainFaultSticky <;> simp [flagsWritten, written, hr, hs]
  unfold sendPing
  by_cases hr : P.pingSendResets = true
  · have hcnt : .cnt .main ∈ written P .mmonPing := by simp [written, hr]
    simp only [hr, if_true]
    exact .responded _ (.flagged _ _ hflags (.restarted _ hcnt (.pinged _ hping .refl)))
  · simp only [hr]
    exact .responded _ (.flagged _ _ hflags (.pinged _ hping .refl))

theorem receivePong_updatesWithin (P : Config.Params) (val : Ping) (s : State) :
    UpdatesWithin (written P (.mmonPong val)) s (receivePong P val s) := by
  have hcnt : .cnt .main ∈ written P (.mmonPong val) := by simp [written]
  unfold receivePong
  split
  next => exact .responded _ (.flagged _ _ (by simp [flagsWritten, written]) (.restarted _ hcnt .refl))
  next => exact .responded _ (.flagged _ _ (by simp [flagsWritten]) .refl)

theorem torqueFrame_updatesWithin (P : Config.Params) (v : BitVec 3) (torque : I16) (pos : Pos) (s : State) :
    UpdatesWithin (written P (.qmonFrame v torque pos)) s (torqueFrame P v torque pos s) := by
  have hfresh : .cnt .fresh ∈ written P (.qmonFrame v torque pos) := by simp [written]
  have hesc : .cnt .esc ∈ written P (.qmonFrame v torque pos) := by simp [written]
  unfold torqueFrame
  split
  next => exact .raised _ (.flagged _ _ (by simp [flagsWritten, written]) .refl)
  next =>
    dsimp only
    have hobserved : UpdatesWithin (written P (.qmonFrame v torque pos)) s (restart .fresh s) :=
      .restarted _ hfresh .refl
    split
    next => exact .responded _ (.flagged _ _ (by simp [flagsWritten, written]) (.restarted _ hesc hobserved))
    next =>
      split
      next htick => exact .responded _ (.flagged _ _ (by simp [flagsWritten, written]) (.ticked htick hesc hobserved))
      next => exact .raised _ (.flagged _ _ (by simp [flagsWritten, written]) hobserved)
  next => exact .raised _ (.flagged _ _ (by simp [flagsWritten, written]) .refl)

/-! ### Every operation -/

/-- Every operation completes, by updates of registers in its row of R26 alone. -/
theorem exec_updatesWithin (i : Instr) (s : State) :
    ∃ t, exec i s = .next t ∧ UpdatesWithin (written Config.params i) s t := by
  have of_statelessUnit (h : ofStatelessUnit i = true) :
      ∃ t, exec i s = .next t ∧ UpdatesWithin (written Config.params i) s t := by
    obtain ⟨r, hr⟩ := exec_of_statelessUnit h
    exact ⟨_, hr s, .answered r .refl⟩
  cases i with
  | crcTbl | crcSum | canEnc | canDec | frameTorqueRequest | frameVcmKeepAlive1 | frameVcmKeepAlive2
  | frameInverterStatus | frameInverterTemperature => exact of_statelessUnit rfl
  | mapNew m a b => exact ⟨_, rfl, .responded _ (.mapStored m a b (by simp [written]) (by simp [written]) .refl)⟩
  | mapMap => exact ⟨_, rfl, .responded _ .refl⟩
  | thrNew a1 b1 a2 b2 tol =>
    exact ⟨_, rfl, .responded _ (.tolStored tol (by simp [written])
      (.mapStored .map2 a2 b2 (by simp [written]) (by simp [written])
        (.mapStored .map1 a1 b1 (by simp [written]) (by simp [written]) .refl)))⟩
  | thrPos s1 s2 =>
    refine ⟨_, rfl, ?_⟩
    split
    next => exact .responded _ .refl
    next => exact .raised _ .refl
  | tmoNew t val =>
    refine ⟨_, rfl, ?_⟩
    split
    next => exact .raised _ .refl
    next slot hslot =>
      exact .responded _ (.constructed slot val (by simp [written, hslot]) (by simp [written, hslot]) .refl)
  | tmoTick t =>
    refine ⟨_, rfl, ?_⟩
    split
    next => exact .raised _ .refl
    next slot hslot =>
      split
      next htick => exact .responded _ (.ticked htick (by simp [written, hslot]) .refl)
      next => exact .raised _ .refl
  | tmoReset t =>
    refine ⟨_, rfl, ?_⟩
    split
    next => exact .raised _ .refl
    next slot hslot => exact .responded _ (.restarted slot (by simp [written, hslot]) .refl)
  | tmonCheck s1 s2 => exact ⟨_, rfl, checkThrottle_updatesWithin _ s1 s2 s⟩
  | mmonTick =>
    exact ⟨_, rfl, monitorTick_updatesWithin _ s (by simp [written]) (by simp [flagsWritten])
      (by simp [flagsWritten, written])⟩
  | mmonPing => exact ⟨_, rfl, sendPing_updatesWithin _ s⟩
  | mmonPong val => exact ⟨_, rfl, receivePong_updatesWithin _ val s⟩
  | qmonTick =>
    exact ⟨_, rfl, monitorTick_updatesWithin _ s (by simp [written]) (by simp [flagsWritten])
      (by simp [flagsWritten, written])⟩
  | qmonFrame v torque pos => exact ⟨_, rfl, torqueFrame_updatesWithin _ v torque pos s⟩
  | outGet => exact ⟨_, rfl, .responded _ .refl⟩

/-- `exec_updatesWithin` for a next state in hand. -/
theorem updatesWithin_of_exec {i : Instr} {s t : State} (h : exec i s = .next t) :
    UpdatesWithin (written Config.params i) s t := by
  obtain ⟨u, hu, hupd⟩ := exec_updatesWithin i s
  rw [h] at hu
  cases hu
  exact hupd

end Sys2Proof.Machine
end

section
/-!
PROOFS. The statements of 10_state.md: the reset values, the invariants of R11, R13 and R16, the access table, and the
units without state.
-/

namespace Sys2Proof.Machine

/-! ### The reset state -/

@[simp] theorem reset_maps_get (m : MapSel) : State.reset.maps.get m = SensorMap.zero := by
  cases m <;> rfl

@[simp] theorem reset_tmo_get (t : Slot) : State.reset.tmo.get t = Timeout.zero := by
  cases t <;> rfl

theorem reset_read (r : Reg) : State.reset.read r = 0 := by
  cases r with
  | mapMin m => simp [State.read, SensorMap.zero]
  | mapMax m => simp [State.read, SensorMap.zero]
  | rv t => simp [State.read, Timeout.zero]
  | cnt t => simp [State.read, Timeout.zero]
  | _ => rfl

/-- Settles O1: each register reads 0 (`reset_read`), so every tick fails (R120) and every map is degenerate (R103);
OUT.GET finds no flag set and POS at 0 (R142). -/
theorem resetLeavesEveryRegisterZero : Obligations.ResetLeavesEveryRegisterZero := by
  refine ⟨reset_read, fun t => tick_of_zero (reset_read (.cnt t)), fun m x => map_eq_none.2 (.inl ?_), rfl⟩
  rw [reset_maps_get, SensorMap.zero]

/-! ### The invariants -/

/-- What the flag update leaves of the throttle flag's coherence (R16, R141): the two rows that write FLT_THR write both
parts of it, and no other row writes either. -/
theorem flagsAfter_coherent (P : Config.Params) (o : MonitorOutcome) {f : FaultFlags} (h : f.coherent) :
    (flagsAfter P o f).coherent := by
  cases o with
  | checkGood => exact rfl
  | checkError e => exact ⟨e, rfl⟩
  | _ => exact h

theorem ofBounds_normalised (a b : Raw) : (SensorMap.ofBounds a b).normalised := by
  obtain ⟨hmin, hmax⟩ := ofBounds_toNat a b
  unfold SensorMap.normalised
  omega

/-- A restarted Timeout, like a constructed one, holds its reset value in its counter (R116, R122). -/
theorem bounded_of_cnt_eq_rv {x : Timeout} (h : x.cnt = x.rv) : x.bounded := by
  rw [Timeout.bounded, h]

/-- The invariants speak of registers only. -/
theorem State.Inv.of_sameRegs {s t : State} (hinv : s.Inv) (h : s.sameRegs t) : t.Inv := by
  obtain ⟨hmaps, -, htmo, -, -, hflt⟩ := h
  obtain ⟨maps, timeouts, flags⟩ := hinv
  exact ⟨hmaps ▸ maps, htmo ▸ timeouts, hflt ▸ flags⟩

theorem State.Inv.setMap {s : State} (hinv : s.Inv) (m : MapSel) {x : SensorMap} (hx : x.normalised) :
    (setMap m x s).Inv where
  maps m' := by
    rw [setMap_maps, mapFile_get_set]
    split
    next => exact hx
    next => exact hinv.maps m'
  timeouts := hinv.timeouts
  flags := hinv.flags

theorem State.Inv.setTmo {s : State} (hinv : s.Inv) (t : Slot) {x : Timeout} (hx : x.bounded) :
    (setTmo t x s).Inv where
  maps := hinv.maps
  timeouts t' := by
    rw [setTmo_tmo, timeoutFile_get_set]
    split
    next => exact hx
    next => exact hinv.timeouts t'
  flags := hinv.flags

/-- A tick that succeeds lowers the counter and leaves the reset value (R119). -/
theorem State.Inv.tick {s t : State} {slot : Slot} (hinv : s.Inv) (h : tick slot s = some t) : t.Inv := by
  obtain ⟨hne, rfl⟩ := tick_eq_some.1 h
  refine hinv.setTmo slot ?_
  have hlower := tick_cnt_toNat hne
  have hbounded : (s.tmo.get slot).cnt.toNat ≤ (s.tmo.get slot).rv.toNat := hinv.timeouts slot
  simp only [Timeout.bounded]
  omega

/-- Every primitive update keeps the invariants, so every chain of them does. -/
theorem UpdatesWithin.inv {W : List Reg} {s t : State} (h : UpdatesWithin W s t) (hinv : s.Inv) : t.Inv := by
  induction h with
  | refl => exact hinv
  | mapStored m a b _ _ _ ih => exact ih.setMap m (ofBounds_normalised a b)
  | constructed slot val _ _ _ ih => exact ih.setTmo slot (bounded_of_cnt_eq_rv rfl)
  | ticked htick _ _ ih => exact ih.tick htick
  | restarted slot _ _ ih => exact ih.setTmo slot (bounded_of_cnt_eq_rv rfl)
  | flagged P o _ _ ih => exact ⟨ih.maps, ih.timeouts, flagsAfter_coherent P o ih.flags⟩
  | answered _ _ ih | tolStored _ _ _ ih | pinged _ _ _ ih | positioned _ _ _ ih =>
    exact ⟨ih.maps, ih.timeouts, ih.flags⟩

/-- Settles O52: both maps and all five Timeouts hold 0 and 0, and the throttle flag is clear with kind 0. -/
theorem invariantsHoldAtReset : Obligations.InvariantsHoldAtReset where
  maps m := by
    rw [reset_maps_get]
    exact Nat.le_refl 0
  timeouts t := by
    rw [reset_tmo_get]
    exact bounded_of_cnt_eq_rv rfl
  flags := rfl

/-- Settles O53, by the four things a step can be (`step_cases`): an instruction is a chain of updates that each keep the
invariants, a reset gives the reset state's registers, and an idle step or a rejected word changes no register. -/
theorem everyStepKeepsInvariants : Obligations.EveryStepKeepsInvariants := by
  intro s t hinv hstep
  obtain ⟨-, h⟩ | ⟨rest, -, h⟩ | ⟨w, rest, i, -, -, h⟩ | ⟨w, rest, e, -, -, h⟩ := step_cases s
  · rw [h] at hstep
    cases hstep
    exact hinv
  · rw [h] at hstep
    cases hstep
    exact invariantsHoldAtReset.of_sameRegs ⟨rfl, rfl, rfl, rfl, rfl, rfl⟩
  · have htaken : ({ s with input := rest } : State).Inv := hinv.of_sameRegs ⟨rfl, rfl, rfl, rfl, rfl, rfl⟩
    exact (updatesWithin_of_exec (h ▸ hstep)).inv htaken
  · rw [h] at hstep
    cases hstep
    exact hinv.of_sameRegs (by simp [State.sameRegs])

/-! ### The access table and the units without state -/

/-- Settles O50: an operation is a chain of updates of registers in its row (`exec_updatesWithin`), and none of them
reaches another register or the input. -/
theorem registersOutsideTheRowStay : Obligations.RegistersOutsideTheRowStay := by
  intro i s t hexec
  have hupd := updatesWithin_of_exec hexec
  exact ⟨fun r hr => hupd.read_eq hr, hupd.input_eq⟩

/-- Settles O28: the one response that `exec_of_statelessUnit` gives for every state is the response in both. -/
theorem statelessUnitsIgnoreTheState : Obligations.StatelessUnitsIgnoreTheState := by
  intro i s s' hunit
  obtain ⟨r, hr⟩ := exec_of_statelessUnit hunit
  exact ⟨_, _, hr s, hr s', rfl, ⟨rfl, rfl, rfl, rfl, rfl, rfl⟩, ⟨rfl, rfl, rfl, rfl, rfl, rfl⟩⟩

end Sys2Proof.Machine
end

section
/-!
PROOFS. Fields of a word: a field or a byte list read as a number, what words that agree on bits have in common, and
what `assemble` leaves below a position.
-/

namespace Sys2Proof

theorem field_eq_of_toNat {k lo n : Nat} {w : BitVec k} {x : BitVec n} (h : w.toNat / 2 ^ lo % 2 ^ n = x.toNat) :
    field w lo n = x :=
  BitVec.eq_of_toNat_eq ((field_toNat w lo n).trans h)

theorem bitField_eq_of_toNat {k lo : Nat} {w : BitVec k} {b : Bool} (h : w.toNat / 2 ^ lo % 2 = b.toNat) :
    bitField w lo = b := by
  have hfield : field w lo 1 = BitVec.ofBool b := field_eq_of_toNat (by simpa using h)
  rw [bitField, hfield]
  cases b <;> rfl

theorem mapSelOfBit_mapSelBit (m : MapSel) : mapSelOfBit (mapSelBit m) = m := by
  cases m <;> rfl

/-- The bytes packed from bit `lo` up, with nothing above them. -/
theorem bytesField_eq_of_toNat {k lo : Nat} {w : BitVec k} {l : List Byte} (h : w.toNat / 2 ^ lo = packBytes l) :
    bytesField w lo l.length = l := by
  simpa only [bytesField, Nat.shiftRight_eq_div_pow, h, Nat.mul_zero, Nat.add_zero] using unpackBytes_packBytes l 0

theorem bytesField_succ {k : Nat} (w : BitVec k) (lo n : Nat) :
    bytesField w lo (n + 1) = field w lo 8 :: bytesField w (lo + 8) n := by
  have hhead : BitVec.ofNat 8 (w.toNat >>> lo) = field w lo 8 := by
    apply BitVec.eq_of_toNat_eq
    rw [BitVec.toNat_ofNat, field_toNat, Nat.shiftRight_eq_div_pow]
  rw [bytesField, unpackBytes, hhead, bytesField, Nat.shiftRight_add, Nat.shiftRight_eq_div_pow _ 8]

/-- A field depends on its own bits alone. -/
theorem field_congr {k lo n : Nat} {w w' : BitVec k}
    (h : ∀ j, lo ≤ j → j < lo + n → w.getLsbD j = w'.getLsbD j) : field w' lo n = field w lo n := by
  apply BitVec.eq_of_getLsbD_eq
  intro i hi
  simp [field, hi, h (lo + i) (by omega) (by omega)]

theorem bytesField_congr {k lo n : Nat} {w w' : BitVec k}
    (h : ∀ j, lo ≤ j → j < lo + 8 * n → w.getLsbD j = w'.getLsbD j) : bytesField w' lo n = bytesField w lo n := by
  induction n generalizing lo with
  | zero => rfl
  | succ n ih =>
    have hhead : field w' lo 8 = field w lo 8 := field_congr fun j hlo hhi => h j hlo (by omega)
    have htail : bytesField w' (lo + 8) n = bytesField w (lo + 8) n := ih fun j hlo hhi => h j (by omega) (by omega)
    rw [bytesField_succ, bytesField_succ, hhead, htail]

/-! ### Assembled numbers and packed bytes -/

/-- Fields from bit `n` up leave the bits below it 0. -/
theorem dvd_assemble {n : Nat} {fields : List (Nat × Nat)} (h : ∀ f ∈ fields, n ≤ f.1) :
    2 ^ n ∣ assemble fields := by
  induction fields with
  | nil => exact Nat.dvd_zero _
  | cons f rest ih =>
    have hhead : 2 ^ n ∣ f.2 * 2 ^ f.1 := Nat.dvd_mul_left_of_dvd (Nat.pow_dvd_pow 2 (h f (by simp))) _
    exact Nat.dvd_add hhead (ih fun g hg => h g (by simp [hg]))

theorem packBytes_lt_of_length_le {l : List Byte} {n : Nat} (h : l.length ≤ n) : packBytes l < 256 ^ n :=
  Nat.lt_of_lt_of_le (packBytes_lt l) (Nat.pow_le_pow_right (by decide) h)

/-- Zero bytes at the end of a list are zeros above its number. -/
theorem packBytes_append_zeros (l : List Byte) (n : Nat) : packBytes (l ++ List.replicate n 0#8) = packBytes l := by
  induction l with
  | nil =>
    induction n with
    | zero => rfl
    | succ n ih => simpa [List.replicate_succ, packBytes] using ih
  | cons b bs ih => simp only [List.cons_append, packBytes, ih]

end Sys2Proof
end

section
/-!
PROOFS. The statements of 30_encoding.md about words: the decoder on encoded words (R46, R47, R50), on every word, and
on words that differ in reserved bits only.
-/

namespace Sys2Proof

/-! ### Well-formed operands -/

theorem payloadWellFormed_iff {len : BitVec 4} {bytes : List Byte} :
    payloadWellFormed len bytes = true ↔ bytes.length = carried len := by
  simp [payloadWellFormed, carried]

theorem wellFormed_canEnc_iff {v : BitVec 3} {torque : I16} {counter : Byte} :
    (Instr.canEnc v torque counter).wellFormed = true ↔ (v = 0#3 → counter.toNat < 4) := by
  by_cases hv : v = 0#3 <;> simp [Instr.wellFormed, hv]

theorem carried_le (len : BitVec 4) : carried len ≤ 8 := Nat.min_le_right _ _

/-! ### Decoding an encoded word -/

/-- Decoding an assembled command word: its number is the assembled one, and its opcode is the one it was given, since
the other fields begin at bit 8 (R46). What is left is the arm of `decodeCmd` for that opcode. -/
theorem decode_cmdWord {op : Nat} {fields : List (Nat × Nat)} {i : Instr}
    (harm : ∀ w : CmdWord, w.toNat = assemble ((0, op) :: fields) → (opcodeOf w).toNat = op → decodeCmd w = .ok i)
    (hlt : assemble ((0, op) :: fields) < 2 ^ 160 := by simp only [assemble]; omega)
    (hop : op < 256 := by decide) (hfields : ∀ f ∈ fields, 8 ≤ f.1 := by simp) :
    decode (cmdWord op fields) = .ok i := by
  have hw : (BitVec.ofNat 160 (assemble ((0, op) :: fields))).toNat = assemble ((0, op) :: fields) :=
    (BitVec.toNat_ofNat _ _).trans (Nat.mod_eq_of_lt hlt)
  refine harm _ hw ?_
  obtain ⟨rest, hrest⟩ := dvd_assemble hfields
  rw [opcodeOf, field_toNat, hw, assemble, hrest]
  omega

/-- Decoding an assembled frame word whose payload has the carried length: the four fields read back (log 5). What is
left is the arm of `decodeFrame` for the identifier. -/
theorem decode_frameWord {id : Nat} {hasData : Bool} {len : BitVec 4} {bytes : List Byte} {i : Instr}
    (hwf : payloadWellFormed len bytes = true)
    (harm : ∀ w : FrameWord, (field w 0 11).toNat = id → bitField w 11 = hasData → field w 12 4 = len →
      bytesField w 16 (carried len) = bytes → decodeFrame w = .ok i)
    (hid : id < 2048 := by decide) : decode (frameWord id hasData len bytes) = .ok i := by
  have hlength := payloadWellFormed_iff.1 hwf
  have hpack : packBytes bytes < 256 ^ 8 := packBytes_lt_of_length_le (hlength ▸ carried_le len)
  have hdata := hasData.toNat_lt
  have hw : (BitVec.ofNat 80 (assemble [(0, id), (11, hasData.toNat), (12, len.toNat), (16, packBytes bytes)])).toNat =
      id + hasData.toNat * 2 ^ 11 + len.toNat * 2 ^ 12 + packBytes bytes * 2 ^ 16 := by
    simp only [assemble, BitVec.toNat_ofNat]
    omega
  refine harm _ ?_ (bitField_eq_of_toNat (by omega)) (field_eq_of_toNat (by omega)) ?_
  · rw [field_toNat]
    omega
  · rw [← hlength]
    exact bytesField_eq_of_toNat (by omega)

/-- CAN.ENC's counter operand reads back: two bits of it when the variant is TorqueRequest (R47 format E). -/
theorem encCounter_eq_of_toNat {w : CmdWord} {v : BitVec 3} {counter : Byte} (hv : field w 8 3 = v)
    (hcounter : w.toNat / 2 ^ 32 = counter.toNat) (hwf : v = 0#3 → counter.toNat < 4) : encCounter w = counter := by
  unfold encCounter
  rw [hv]
  split
  next hzero =>
    have hsmall := hwf hzero
    apply BitVec.eq_of_toNat_eq
    rw [BitVec.toNat_setWidth, field_toNat]
    omega
  next => exact field_eq_of_toNat (by omega)

end Sys2Proof

namespace Sys2Proof.Machine

/-- Settles O8, constructor by constructor: a command word's fields do not overlap, so each operand is read back as it was
put (`decode_cmdWord`), and the five frame rows have one word format (`decode_frameWord`). -/
theorem decodeEncodeRoundTrip : Obligations.DecodeEncodeRoundTrip := by
  intro i hwf
  cases i with
  | crcTbl p idx =>
    refine decode_cmdWord fun w hw hop => ?_
    simp only [assemble] at hw
    have hp : field w 8 8 = p := field_eq_of_toNat (by omega)
    have hidx : field w 16 8 = idx := field_eq_of_toNat (by omega)
    simp only [decodeCmd, hop, hp, hidx]
  | crcSum p bytes =>
    have hlength : bytes.length ≤ 15 := of_decide_eq_true hwf
    have hpack := packBytes_lt_of_length_le hlength
    refine decode_cmdWord fun w hw hop => ?_
    simp only [assemble] at hw
    have hp : field w 8 8 = p := field_eq_of_toNat (by omega)
    have hn : (field w 16 4).toNat = bytes.length := by
      rw [field_toNat]
      omega
    have hbytes : bytesField w 24 bytes.length = bytes := bytesField_eq_of_toNat (by omega)
    simp only [decodeCmd, hop, hp, hn, hbytes]
  | canEnc v torque counter =>
    refine decode_cmdWord fun w hw hop => ?_
    simp only [assemble] at hw
    have hv : field w 8 3 = v := field_eq_of_toNat (by omega)
    have htorque : field w 16 16 = torque := field_eq_of_toNat (by omega)
    have hcounter : encCounter w = counter := encCounter_eq_of_toNat hv (by omega) (wellFormed_canEnc_iff.1 hwf)
    simp only [decodeCmd, hop, hv, htorque, hcounter]
  | canDec id hasData len bytes =>
    have hlength := payloadWellFormed_iff.1 hwf
    have hpack : packBytes bytes < 256 ^ 8 := packBytes_lt_of_length_le (hlength ▸ carried_le len)
    have hbit := hasData.toNat_lt
    refine decode_cmdWord fun w hw hop => ?_
    simp only [assemble] at hw
    have hid : field w 8 11 = id := field_eq_of_toNat (by omega)
    have hdata : bitField w 19 = hasData := bitField_eq_of_toNat (by omega)
    have hlen : field w 20 4 = len := field_eq_of_toNat (by omega)
    have hbytes : bytesField w 24 (carried len) = bytes := hlength ▸ bytesField_eq_of_toNat (by omega)
    simp only [decodeCmd, hop, hid, hdata, hlen, hbytes]
  | mapNew m a b =>
    have hbit := (mapSelBit m).toNat_lt
    refine decode_cmdWord fun w hw hop => ?_
    simp only [assemble] at hw
    have hm : bitField w 8 = mapSelBit m := bitField_eq_of_toNat (by omega)
    have ha : field w 16 32 = a := field_eq_of_toNat (by omega)
    have hb : field w 48 32 = b := field_eq_of_toNat (by omega)
    simp only [decodeCmd, hop, hm, mapSelOfBit_mapSelBit, ha, hb]
  | mapMap m x =>
    have hbit := (mapSelBit m).toNat_lt
    refine decode_cmdWord fun w hw hop => ?_
    simp only [assemble] at hw
    have hm : bitField w 8 = mapSelBit m := bitField_eq_of_toNat (by omega)
    have hx : field w 16 32 = x := field_eq_of_toNat (by omega)
    simp only [decodeCmd, hop, hm, mapSelOfBit_mapSelBit, hx]
  | thrNew a1 b1 a2 b2 tol =>
    refine decode_cmdWord fun w hw hop => ?_
    simp only [assemble] at hw
    have ha1 : field w 16 32 = a1 := field_eq_of_toNat (by omega)
    have hb1 : field w 48 32 = b1 := field_eq_of_toNat (by omega)
    have ha2 : field w 80 32 = a2 := field_eq_of_toNat (by omega)
    have hb2 : field w 112 32 = b2 := field_eq_of_toNat (by omega)
    have htol : field w 144 16 = tol := field_eq_of_toNat (by omega)
    simp only [decodeCmd, hop, ha1, hb1, ha2, hb2, htol]
  | thrPos s1 s2 | tmonCheck s1 s2 =>
    refine decode_cmdWord fun w hw hop => ?_
    simp only [assemble] at hw
    have hs1 : field w 16 32 = s1 := field_eq_of_toNat (by omega)
    have hs2 : field w 48 32 = s2 := field_eq_of_toNat (by omega)
    simp only [decodeCmd, hop, hs1, hs2]
  | tmoNew t val =>
    refine decode_cmdWord fun w hw hop => ?_
    simp only [assemble] at hw
    have ht : field w 8 3 = t := field_eq_of_toNat (by omega)
    have hval : field w 16 32 = val := field_eq_of_toNat (by omega)
    simp only [decodeCmd, hop, ht, hval]
  | tmoTick t | tmoReset t =>
    refine decode_cmdWord fun w hw hop => ?_
    simp only [assemble] at hw
    have ht : field w 8 3 = t := field_eq_of_toNat (by omega)
    simp only [decodeCmd, hop, ht]
  | mmonTick | mmonPing | qmonTick | outGet =>
    refine decode_cmdWord fun w _ hop => ?_
    simp only [decodeCmd, hop]
  | mmonPong val =>
    refine decode_cmdWord fun w hw hop => ?_
    simp only [assemble] at hw
    have hval : field w 16 32 = val := field_eq_of_toNat (by omega)
    simp only [decodeCmd, hop, hval]
  | qmonFrame v torque pos =>
    refine decode_cmdWord fun w hw hop => ?_
    simp only [assemble] at hw
    have hv : field w 8 3 = v := field_eq_of_toNat (by omega)
    have htorque : field w 16 16 = torque := field_eq_of_toNat (by omega)
    have hpos : field w 48 16 = pos := field_eq_of_toNat (by omega)
    simp only [decodeCmd, hop, hv, htorque, hpos]
  | frameTorqueRequest hasData len bytes | frameVcmKeepAlive1 hasData len bytes
  | frameVcmKeepAlive2 hasData len bytes | frameInverterStatus hasData len bytes
  | frameInverterTemperature hasData len bytes =>
    refine decode_frameWord hwf fun w hid hdata hlen hbytes => ?_
    simp only [decodeFrame, hid, hdata, hlen, hbytes]

end Sys2Proof.Machine
end

section
/-!
PROOFS. The statements of 30_encoding.md about every word: which words decode (R50, R53), to what terms (R47), and that
reserved bits never matter (R46).
-/

namespace Sys2Proof

/-! ### Words that decode -/

theorem encCounter_lt (w : CmdWord) (hv : field w 8 3 = 0#3) : (encCounter w).toNat < 4 := by
  have hsmall := (field w 32 2).isLt
  rw [encCounter, if_pos hv, BitVec.toNat_setWidth]
  omega

theorem payloadWellFormed_bytesField {k : Nat} (w : BitVec k) (lo : Nat) (len : BitVec 4) :
    payloadWellFormed len (bytesField w lo (carried len)) = true :=
  payloadWellFormed_iff.2 (bytesField_length w lo (carried len))

/-- What a command word decodes to is well-formed: three of R47's formats carry operands that a term could hold and no
word does. -/
theorem wellFormed_of_decodeCmd {w : CmdWord} {i : Instr} (h : decodeCmd w = .ok i) : i.wellFormed = true := by
  unfold decodeCmd at h
  split at h <;> cases h
  case h_2 =>
    have hn := (field w 16 4).isLt
    rw [Instr.wellFormed, bytesField_length]
    exact decide_eq_true (Nat.le_of_lt_succ hn)
  case h_3 => exact wellFormed_canEnc_iff.2 (encCounter_lt w)
  case h_4 => exact payloadWellFormed_bytesField w 24 (field w 20 4)
  all_goals rfl

theorem wellFormed_of_decodeFrame {w : FrameWord} {i : Instr} (h : decodeFrame w = .ok i) : i.wellFormed = true := by
  unfold decodeFrame at h
  dsimp only at h
  split at h <;> cases h
  all_goals exact payloadWellFormed_bytesField w 16 (field w 12 4)

theorem decodeFrame_of_unknown {w : FrameWord}
    (h : (field w 0 11).toNat ∉ [0x14D, 0x11A, 0x50B, 0x1DA, 0x55A]) :
    decodeFrame w = .error (.unknownIdentifier (field w 0 11)) := by
  unfold decodeFrame
  dsimp only
  split
  case h_6 => rfl
  all_goals next hid => simp [hid] at h

end Sys2Proof

namespace Sys2Proof.Machine

/-- Settles O9: `wellFormed_of_decodeCmd` and `wellFormed_of_decodeFrame` for the two kinds of word. -/
theorem decodedInstructionsAreWellFormed : Obligations.DecodedInstructionsAreWellFormed := by
  intro w i h
  cases w with
  | cmd w => exact wellFormed_of_decodeCmd h
  | frame w => exact wellFormed_of_decodeFrame h

/-- Settles O10: each arm of the two decoders but the last answers an instruction, and its opcode or identifier is in the
list; the last arm answers an error, and its hypotheses exclude every entry of the list. -/
theorem exactlyTheTableDecodes : Obligations.ExactlyTheTableDecodes := by
  constructor
  · intro w
    unfold decode decodeCmd
    dsimp only
    split
    case h_19 => simp_all [definedOpcodes]
    all_goals next hop => simp [definedOpcodes, hop]
  · intro w
    unfold decode decodeFrame
    dsimp only
    split
    case h_6 => simp_all
    all_goals next hid => simp [hid]

/-- A step with a word that does not decode is the answer to the rejected word. -/
theorem step_of_decode_error {s : State} {w : InputWord} {rest : List HostEvent} {e : DecodeError}
    (hinput : s.input = .present w :: rest) (hdecode : decode w = .error e) :
    step s = .next (rejectWord e { s with input := rest }) := by
  simp only [step, fetch_present hinput, hdecode]

/-- Settles O7: the decoder rejects the word by its identifier, and the answer is an UnknownFrame that writes the response
port alone. -/
theorem unknownFrameWordsAreAnswered : Obligations.UnknownFrameWordsAreAnswered := by
  intro s w rest hinput hid
  exact ⟨raise .unknownFrame { s with input := rest }, step_of_decode_error hinput (decodeFrame_of_unknown hid), rfl,
    ⟨rfl, rfl, rfl, rfl, rfl, rfl⟩, rfl⟩

/-- Settles O12: the decoder evaluated on six closed words. -/
theorem writtenOutWordsDecode : Obligations.WrittenOutWordsDecode := by
  unfold Obligations.WrittenOutWordsDecode
  decide

/-! ### Words that agree on the named bits -/

section

variable {w w' : CmdWord} (h : agreeOnNamedBits w w')
include h

theorem field_of_agree {lo n : Nat} (hn : 0 < n) (hnamed : (lo, lo + n - 1) ∈ namedRanges w) :
    field w' lo n = field w lo n :=
  field_congr fun j hlo hhi => h _ hnamed j hlo (show j ≤ lo + n - 1 by omega)

/-- A byte list may be empty, and then its range names no bit. -/
theorem bytesField_of_agree {lo n : Nat} (hnamed : (lo, lo - 1 + 8 * n) ∈ namedRanges w) :
    bytesField w' lo n = bytesField w lo n :=
  bytesField_congr fun j hlo hhi => h _ hnamed j hlo (show j ≤ lo - 1 + 8 * n by omega)

theorem opcodeOf_of_agree : opcodeOf w' = opcodeOf w := field_of_agree h (by decide) List.mem_cons_self

theorem encCounter_of_agree (hop : (opcodeOf w).toNat = 0x10) : encCounter w' = encCounter w := by
  have hsel : field w' 8 3 = field w 8 3 := field_of_agree h (by decide) (by simp [namedRanges, hop])
  unfold encCounter
  rw [hsel]
  split
  next hv => rw [field_of_agree h (by decide) (by simp [namedRanges, hop, hv])]
  next hv => exact field_of_agree h (by decide) (by simp [namedRanges, hop, hv])

/-- The two words decode in one arm, since the opcode is named, and each operand of that arm is a field that its format
names; the byte lists and CAN.ENC's counter take their extent from a field that is named too. -/
theorem decodeCmd_of_agree : decodeCmd w' = decodeCmd w := by
  rw [decodeCmd, decodeCmd, opcodeOf_of_agree h]
  split
  case h_2 hop =>
    have hp : field w' 8 8 = field w 8 8 := field_of_agree h (by decide) (by simp [namedRanges, hop])
    have hn : field w' 16 4 = field w 16 4 := field_of_agree h (by decide) (by simp [namedRanges, hop])
    rw [hp, hn, bytesField_of_agree h (by simp [namedRanges, hop])]
  case h_3 hop =>
    have hv : field w' 8 3 = field w 8 3 := field_of_agree h (by decide) (by simp [namedRanges, hop])
    have htorque : field w' 16 16 = field w 16 16 := field_of_agree h (by decide) (by simp [namedRanges, hop])
    rw [hv, htorque, encCounter_of_agree h hop]
  case h_4 hop =>
    have hid : field w' 8 11 = field w 8 11 := field_of_agree h (by decide) (by simp [namedRanges, hop])
    have hdata : bitField w' 19 = bitField w 19 := by
      rw [bitField, field_of_agree h (by decide) (by simp [namedRanges, hop]), bitField]
    have hlen : field w' 20 4 = field w 20 4 := field_of_agree h (by decide) (by simp [namedRanges, hop])
    rw [hid, hdata, hlen, bytesField_of_agree h (by simp [namedRanges, hop])]
  case h_19 => rfl
  all_goals next hop => simp [bitField, field_of_agree h, namedRanges, hop]

end

/-- Settles O11: the two words decode alike (`decodeCmd_of_agree`), and a step sees of a presented word only what it decodes
to. -/
theorem reservedBitsNeverMatter : Obligations.ReservedBitsNeverMatter := by
  intro w w' h
  have hdecode : decode (.cmd w') = decode (.cmd w) := decodeCmd_of_agree h
  exact ⟨hdecode, fun s rest => by simp only [step, fetch, hdecode]⟩

/-! ### Selectors -/

theorem slotOf_eq_none {t : BitVec 3} (h : 5 ≤ t.toNat) : slotOf t = none := by
  unfold slotOf
  split
  case h_6 => rfl
  all_goals omega

/-- Settles O13: the selectors above 4 name no slot, and the three Timeout operations raise IllegalOp where the selector
names none. -/
theorem selectorsNameSlotsAndMaps : Obligations.SelectorsNameSlotsAndMaps := by
  refine ⟨rfl, rfl, rfl, rfl, rfl, fun t ht => ?_, rfl, rfl⟩
  have hnone := slotOf_eq_none ht
  refine ⟨hnone, fun val s => ⟨?_, ?_, ?_⟩⟩
  · simp only [exec, execTmoNew, hnone]
  · simp only [exec, execTmoTick, hnone]
  · simp only [exec, execTmoReset, hnone]

end Sys2Proof.Machine
end

section
/-!
PROOFS. The statements of 41_can_codec.md about CAN.DEC's checks (R86 to R90), and the frame rows as CAN.DEC (R54 to R58,
log 4).
-/

namespace Sys2Proof.Machine

/-- The identifiers are those of R53, each of one variant. -/
theorem variantOf_variantId (v : Variant) : variantOf (variantId v) = some v := by
  cases v <;> rfl

theorem variantOf_of_unknown {id : CanId} (h : id.toNat ∉ [0x14D, 0x11A, 0x50B, 0x1DA, 0x55A]) :
    variantOf id = none := by
  unfold variantOf
  split
  case h_6 => rfl
  all_goals next hid => simp [hid] at h

theorem exists_variantId {id : CanId} (h : id.toNat ∈ [0x14D, 0x11A, 0x50B, 0x1DA, 0x55A]) :
    ∃ v, variantId v = id := by
  simp only [List.mem_cons, List.not_mem_nil, or_false] at h
  obtain hid | hid | hid | hid | hid := h
  · exact ⟨.torqueRequest, BitVec.eq_of_toNat_eq hid.symm⟩
  · exact ⟨.vcmKeepAlive1, BitVec.eq_of_toNat_eq hid.symm⟩
  · exact ⟨.vcmKeepAlive2, BitVec.eq_of_toNat_eq hid.symm⟩
  · exact ⟨.inverterStatus, BitVec.eq_of_toNat_eq hid.symm⟩
  · exact ⟨.inverterTemperature, BitVec.eq_of_toNat_eq hid.symm⟩

theorem extract_variant (L : Config.Layout) (v : Variant) (bytes : List Byte) : (extract L v bytes).variant = v := by
  cases v <;> rfl

/-- R89's lengths, by identifier. -/
theorem lengthOk_iff (v : Variant) (len : BitVec 4) :
    lengthOk v len = true ↔
      (variantId v = 0x14D#11 ∧ len.toNat = 8) ∨ (variantId v = 0x11A#11 ∧ len.toNat = 8) ∨
      (variantId v = 0x50B#11 ∧ len.toNat = 7) ∨ (variantId v = 0x1DA#11 ∧ len.toNat = 7) ∨
      (variantId v = 0x55A#11 ∧ 2 ≤ len.toNat ∧ len.toNat ≤ 8) := by
  cases v <;> simp [lengthOk, variantId]

theorem crcBearing_iff (v : Variant) : crcBearing v = true ↔ variantId v = 0x14D#11 ∨ variantId v = 0x11A#11 := by
  cases v <;> decide

theorem crcOk_iff (bytes : List Byte) : crcOk bytes = true ↔ checksum (bytes.take 7) 0x85#8 = memRead8 bytes 7 :=
  beq_iff_eq

theorem exec_canDec_variantId (v : Variant) (hasData : Bool) (len : BitVec 4) (bytes : List Byte) (s : State) :
    exec (.canDec (variantId v) hasData len bytes) s =
      .next (answer (decodePayload defaultLayout v hasData len bytes) s) := by
  simp only [exec, execCanDec, decodeRawFrame, variantOf_variantId]

/-- Settles O22: an identifier that is none of the five names no variant; one of the five is a variant's, and the four
outcomes of `decodePayload_cases` are the four branches left. -/
theorem canDecChecksInOrder : Obligations.CanDecChecksInOrder := by
  intro id hasData len bytes s
  by_cases hid : id.toNat ∈ [0x14D, 0x11A, 0x50B, 0x1DA, 0x55A]
  · obtain ⟨v, rfl⟩ := exists_variantId hid
    rw [exec_canDec_variantId]
    have lengthFits := lengthOk_iff v len
    have crcFails := (crcBearing_iff v).and (crcOk_iff bytes).not
    obtain ⟨hdata, h⟩ | ⟨hdata, hlen, h⟩ | ⟨hdata, hlen, hbearing, hcrc, h⟩ | ⟨hdata, hlen, hcrc, h⟩ :=
      decodePayload_cases defaultLayout v hasData len bytes
    all_goals
      rw [h]
      refine ⟨_, rfl, ?_⟩
      dsimp only
      rw [if_neg (not_not.2 hid)]
    · rw [if_pos hdata]
    · rw [if_neg (by simp [hdata]), if_pos (lengthFits.not.1 (by simp [hlen]))]
    · rw [if_neg (by simp [hdata]), if_neg (not_not.2 (lengthFits.1 hlen)),
        if_pos (crcFails.1 ⟨hbearing, by simp [hcrc]⟩)]
    · rw [if_neg (by simp [hdata]), if_neg (not_not.2 (lengthFits.1 hlen)),
        if_neg (crcFails.not.1 fun hfail => hfail.2 (hcrc hfail.1))]
      exact ⟨_, rfl, by rw [extract_variant]⟩
  · have hexec : exec (.canDec id hasData len bytes) s = .next (answer (.error .unknownFrame) s) := by
      simp only [exec, execCanDec, decodeRawFrame, variantOf_of_unknown hid]
    refine ⟨.error .unknownFrame, hexec, ?_⟩
    dsimp only
    rw [if_pos hid]

/-- Settles O24: CAN.DEC of a variant's identifier decodes the payload as that variant (`exec_canDec_variantId`), which is
the meaning of the variant's frame row. -/
theorem frameRowsAreCanDec : Obligations.FrameRowsAreCanDec := by
  intro hasData len bytes s
  exact ⟨(exec_canDec_variantId .torqueRequest hasData len bytes s).symm,
    (exec_canDec_variantId .vcmKeepAlive1 hasData len bytes s).symm,
    (exec_canDec_variantId .vcmKeepAlive2 hasData len bytes s).symm,
    (exec_canDec_variantId .inverterStatus hasData len bytes s).symm,
    (exec_canDec_variantId .inverterTemperature hasData len bytes s).symm⟩

end Sys2Proof.Machine
end

section
/-!
PROOFS. The packed response word (30_encoding.md R48, R49), field by field and as a whole word.
-/

namespace Sys2Proof.Machine

/-! ### The word as a number -/

/-- A raw frame apart, `RSP[95:8]` is the four data fields. -/
theorem resultBody_of_not_frame {r : Result} (h : ∀ v id payload, r ≠ .frame v id payload) :
    resultBody r = (resultFields r).a.toNat * 2 ^ 24 + (resultFields r).b.toNat * 2 ^ 56 +
      (resultFields r).c.toNat * 2 ^ 72 + (resultFields r).d.toNat * 2 ^ 88 := by
  cases r with
  | frame v id payload => exact absurd rfl (h v id payload)
  | _ =>
    simp only [resultBody, assemble]
    omega

theorem resultBody_frame (v : Variant) (id : CanId) (payload : List Byte) :
    resultBody (.frame v id payload) = id.toNat * 2 ^ 8 + payload.length * 2 ^ 20 + packBytes payload * 2 ^ 24 := by
  simp only [resultBody, assemble]
  omega

theorem pack_ok_toNat (r : Result) :
    (Response.ok r).pack.toNat =
      ((resultFlag r).toNat * 2 ^ 4 + (resultVariant r).toNat * 2 ^ 5 + resultBody r) % 2 ^ 96 := by
  simp only [Response.pack, assemble, BitVec.toNat_ofNat, Nat.add_zero]

/-- The body begins at bit 8. -/
theorem dvd_resultBody (r : Result) : 256 ∣ resultBody r := by
  by_cases h : ∃ v id payload, r = .frame v id payload
  · obtain ⟨v, id, payload, rfl⟩ := h
    rw [resultBody_frame]
    omega
  · rw [resultBody_of_not_frame fun v id payload hr => h ⟨v, id, payload, hr⟩]
    omega

theorem toNat_append {m n : Nat} (x : BitVec m) (y : BitVec n) : (x ++ y).toNat = x.toNat * 2 ^ n + y.toNat := by
  rw [BitVec.toNat_append, ← Nat.shiftLeft_add_eq_or_of_lt y.isLt, Nat.shiftLeft_eq]

theorem okWord_toNat (flag : Bool) (variant : BitVec 3) (a : BitVec 32) (b c : BitVec 16) (d : BitVec 8) :
    (okWord flag variant a b c d).toNat = flag.toNat * 2 ^ 4 + variant.toNat * 2 ^ 5 + a.toNat * 2 ^ 24 +
      b.toNat * 2 ^ 56 + c.toNat * 2 ^ 72 + d.toNat * 2 ^ 88 := by
  simp only [okWord, toNat_append, BitVec.toNat_ofBool, BitVec.toNat_ofNat]
  omega

/-- The packed response of every result but a raw frame is `okWord` of its flag, its variant and its data fields. -/
theorem pack_ok_eq_okWord {r : Result} (h : ∀ v id payload, r ≠ .frame v id payload) :
    (Response.ok r).pack = okWord (resultFlag r) (resultVariant r) (resultFields r).a (resultFields r).b
      (resultFields r).c (resultFields r).d := by
  apply BitVec.eq_of_toNat_eq
  have hflag := (resultFlag r).toNat_lt
  rw [pack_ok_toNat, okWord_toNat, resultBody_of_not_frame h]
  omega

/-- The packed response of a raw frame that fits the word. -/
theorem pack_frame_toNat (v : Variant) (id : CanId) {payload : List Byte} (h : payload.length ≤ 8) :
    (Response.ok (.frame v id payload)).pack.toNat = (variantSel v).toNat * 2 ^ 5 + id.toNat * 2 ^ 8 +
      payload.length * 2 ^ 20 + packBytes payload * 2 ^ 24 := by
  have hpack := packBytes_lt_of_length_le h
  rw [pack_ok_toNat, resultBody_frame]
  simp only [resultFlag, resultVariant, Bool.toNat_false]
  omega

/-! ### The fields -/

theorem pack_error_toNat (e : ErrorKind) : (Response.error e).pack.toNat = e.code.toNat := by
  have hcode := e.code.isLt
  rw [Response.pack, BitVec.toNat_setWidth]
  omega

theorem code_bounds (e : ErrorKind) : 1 ≤ e.code.toNat ∧ e.code.toNat ≤ 11 := by
  cases e <;> decide

/-- Status 0, the flag and the variant of every OK response: the body does not reach them. -/
theorem pack_ok_low_fields (r : Result) :
    field (Response.ok r).pack 0 4 = 0#4 ∧ field (Response.ok r).pack 4 1 = BitVec.ofBool (resultFlag r) ∧
      field (Response.ok r).pack 5 3 = resultVariant r := by
  have hw := pack_ok_toNat r
  have hflag := (resultFlag r).toNat_lt
  obtain ⟨body, hbody⟩ := dvd_resultBody r
  refine ⟨field_eq_of_toNat ?_, field_eq_of_toNat ?_, field_eq_of_toNat (by omega)⟩
  · rw [BitVec.toNat_ofNat]
    omega
  · rw [BitVec.toNat_ofBool]
    omega

/-- Identifier, length and bytes of a raw frame; the bytes beyond the payload are 0. -/
theorem pack_frame_fields (v : Variant) (id : CanId) {payload : List Byte} (h : payload.length ≤ 8) :
    field (Response.ok (.frame v id payload)).pack 8 11 = id ∧
    field (Response.ok (.frame v id payload)).pack 19 1 = 0#1 ∧
    (field (Response.ok (.frame v id payload)).pack 20 4).toNat = payload.length ∧
    bytesField (Response.ok (.frame v id payload)).pack 24 8
      = payload ++ List.replicate (8 - payload.length) 0#8 := by
  have hw := pack_frame_toNat v id h
  refine ⟨field_eq_of_toNat (by omega), field_eq_of_toNat ?_, ?_, ?_⟩
  · rw [BitVec.toNat_ofNat]
    omega
  · rw [field_toNat]
    omega
  · have hlength : (payload ++ List.replicate (8 - payload.length) 0#8).length = 8 := by
      rw [List.length_append, List.length_replicate]
      omega
    have hbytes := bytesField_eq_of_toNat (w := (Response.ok (.frame v id payload)).pack) (lo := 24)
      (l := payload ++ List.replicate (8 - payload.length) 0#8) (by rw [packBytes_append_zeros]; omega)
    rwa [hlength] at hbytes

/-- The four data fields of every other result, with zeros below them. -/
theorem pack_ok_data_fields {r : Result} (h : ∀ v id payload, r ≠ .frame v id payload) :
    field (Response.ok r).pack 8 16 = 0#16 ∧ field (Response.ok r).pack 24 32 = (resultFields r).a ∧
    field (Response.ok r).pack 56 16 = (resultFields r).b ∧ field (Response.ok r).pack 72 16 = (resultFields r).c ∧
    field (Response.ok r).pack 88 8 = (resultFields r).d := by
  have hw := okWord_toNat (resultFlag r) (resultVariant r) (resultFields r).a (resultFields r).b (resultFields r).c
    (resultFields r).d
  have hflag := (resultFlag r).toNat_lt
  rw [pack_ok_eq_okWord h]
  refine ⟨field_eq_of_toNat ?_, field_eq_of_toNat (by omega), field_eq_of_toNat (by omega),
    field_eq_of_toNat (by omega), field_eq_of_toNat (by omega)⟩
  rw [BitVec.toNat_ofNat]
  omega

/-! ### The table of R48 -/

theorem pack_torqueRequest (torque : I16) (counter : BitVec 2) :
    (Response.ok (.message (.torqueRequest torque counter))).pack
      = okWord false 0#3 0#32 torque 0#16 (0#6 ++ counter) := by
  have hd : counter.setWidth 8 = 0#6 ++ counter := BitVec.setWidth_eq_append (by decide)
  exact hd ▸ pack_ok_eq_okWord nofun

theorem pack_inverterTemperature (motor inverter : Byte) :
    (Response.ok (.message (.inverterTemperature motor inverter))).pack
      = okWord false 4#3 0#32 0#16 (0#8 ++ inverter) motor := by
  have hc : inverter.setWidth 16 = 0#8 ++ inverter := BitVec.setWidth_eq_append (by decide)
  exact hc ▸ pack_ok_eq_okWord nofun

/-- Settles O56: the codes by evaluation, the fields from the word as a number, and each whole word of R48's table from
`pack_ok_eq_okWord`. -/
theorem packedResponseFields : Obligations.PackedResponseFields := by
  refine ⟨fun e => ⟨pack_error_toNat e, code_bounds e⟩, by decide, pack_ok_low_fields,
    fun v id payload h => pack_frame_fields v id h, fun r h => pack_ok_data_fields h, fun v id payload => ?_,
    fun value => ⟨pack_ok_eq_okWord nofun, pack_ok_eq_okWord nofun⟩, pack_torqueRequest,
    fun counter => pack_ok_eq_okWord nofun, pack_ok_eq_okWord nofun,
    fun millivolt current rpm error => pack_ok_eq_okWord nofun, pack_inverterTemperature,
    pack_ok_eq_okWord nofun, fun y => pack_ok_eq_okWord nofun, pack_ok_eq_okWord nofun,
    fun p => pack_ok_eq_okWord nofun, fun cnt => pack_ok_eq_okWord nofun, fun p masked => pack_ok_eq_okWord nofun,
    fun value => pack_ok_eq_okWord nofun, fun matched => pack_ok_eq_okWord nofun,
    fun masked => pack_ok_eq_okWord nofun, fun faulted p src kind => pack_ok_eq_okWord nofun⟩
  obtain ⟨-, hflag, hvariant⟩ := pack_ok_low_fields (.frame v id payload)
  refine ⟨hflag, hvariant.trans ?_⟩
  cases v <;> rfl

end Sys2Proof.Machine
end

section
/-!
PROOFS. The statements of 40_crc8.md: the CRC table (R70, R71), the checksum as a fold of it (R72, R74, R75), and the two
operations of U0 (R73, R74, R77). A shift/XOR step is linear over XOR, so the table and the fold are too; a polynomial
with its constant term loses no register value, so only entry 0 of its table is 0.
-/

namespace Sys2Proof.Machine

/-! ### One shift/XOR step -/

/-- The step without its branch: the polynomial is XORed in as often as the top bit says. -/
theorem crcShift_eq_xor (p r : Byte) : crcShift p r = r <<< 1 ^^^ (if r.msb then p else 0#8) := by
  unfold crcShift
  split
  next => rfl
  next => rw [BitVec.xor_zero]

theorem crcShift_zero (p : Byte) : crcShift p 0#8 = 0#8 := rfl

theorem crcShift_of_not_msb (p : Byte) {r : Byte} (h : r.msb = false) : crcShift p r = r <<< 1 := by
  rw [crcShift_eq_xor, h, if_neg Bool.false_ne_true, BitVec.xor_zero]

theorem crcShift_zeroPoly (r : Byte) : crcShift 0#8 r = r <<< 1 := by
  rw [crcShift_eq_xor, ite_self, BitVec.xor_zero]

/-- The top bit of an XOR is the XOR of the top bits, so two polynomials XORed in cancel. -/
theorem crcShift_xor (p a b : Byte) : crcShift p (a ^^^ b) = crcShift p a ^^^ crcShift p b := by
  have hpoly : (if (a ^^^ b).msb then p else 0#8) = (if a.msb then p else 0#8) ^^^ (if b.msb then p else 0#8) := by
    rw [BitVec.msb_xor]
    cases a.msb <;> cases b.msb <;> simp
  rw [crcShift_eq_xor, crcShift_eq_xor, crcShift_eq_xor, BitVec.shiftLeft_xor_distrib, hpoly]
  ac_rfl

/-- A step of a polynomial with constant term loses nothing: a top bit shifted out leaves its mark in bit 0. -/
theorem crcShift_eq_zero_iff {p r : Byte} (hp : p.getLsbD 0 = true) : crcShift p r = 0#8 ↔ r = 0#8 := by
  refine ⟨fun h => ?_, fun h => h ▸ crcShift_zero p⟩
  cases htop : r.msb with
  | true =>
    rw [crcShift_eq_xor, htop, if_pos rfl, BitVec.xor_eq_zero_iff] at h
    have hbit : (r <<< 1).getLsbD 0 = false := by simp
    rw [h, hp] at hbit
    cases hbit
  | false =>
    have hsmall : 2 * r.toNat < 2 ^ 8 := BitVec.msb_eq_false_iff_two_mul_lt.1 htop
    rw [crcShift_of_not_msb p htop] at h
    bv_omega

/-! ### The table -/

theorem crcShifts_zero (p : Byte) (n : Nat) : crcShifts p n 0#8 = 0#8 := by
  induction n with
  | zero => rfl
  | succ n ih => rw [crcShifts, crcShift_zero, ih]

theorem crcShifts_zeroPoly (n : Nat) (r : Byte) : crcShifts 0#8 n r = r <<< n := by
  induction n generalizing r with
  | zero => exact (BitVec.shiftLeft_zero r).symm
  | succ n ih => rw [crcShifts, crcShift_zeroPoly, ih, Nat.add_comm, BitVec.shiftLeft_add]

/-- As long as no bit is shifted out the steps are plain shifts, whatever the polynomial. -/
theorem crcShifts_of_lt (p : Byte) {n : Nat} {r : Byte} (h : r.toNat * 2 ^ n < 2 ^ 8) : crcShifts p n r = r <<< n := by
  induction n generalizing r with
  | zero => exact (BitVec.shiftLeft_zero r).symm
  | succ n ih =>
    have hpos : 0 < 2 ^ n := Nat.two_pow_pos n
    have hnext : 2 * r.toNat * 2 ^ n < 2 ^ 8 := by rwa [Nat.pow_succ', ← Nat.mul_assoc, Nat.mul_comm r.toNat] at h
    have hsmall : 2 * r.toNat < 2 ^ 8 := Nat.lt_of_le_of_lt (Nat.le_mul_of_pos_right _ hpos) hnext
    have hdouble : (r <<< 1).toNat = 2 * r.toNat := by bv_omega
    rw [crcShifts, crcShift_of_not_msb p (BitVec.msb_eq_false_iff_two_mul_lt.2 hsmall), ih (by rwa [hdouble]),
      Nat.add_comm, BitVec.shiftLeft_add]

theorem crcShifts_xor (p : Byte) (n : Nat) (a b : Byte) :
    crcShifts p n (a ^^^ b) = crcShifts p n a ^^^ crcShifts p n b := by
  induction n generalizing a b with
  | zero => rfl
  | succ n ih => rw [crcShifts, crcShift_xor, ih, crcShifts, crcShifts]

theorem crcShifts_eq_zero_iff {p : Byte} (hp : p.getLsbD 0 = true) (n : Nat) (r : Byte) :
    crcShifts p n r = 0#8 ↔ r = 0#8 := by
  induction n generalizing r with
  | zero => rfl
  | succ n ih => rw [crcShifts, ih, crcShift_eq_zero_iff hp]

@[simp] theorem tblRead_zero (p : Byte) : tblRead p 0#8 = 0#8 := crcShifts_zero p 8

theorem tblRead_xor (p a b : Byte) : tblRead p (a ^^^ b) = tblRead p a ^^^ tblRead p b := crcShifts_xor p 8 a b

theorem tblRead_eq_zero_iff {p : Byte} (hp : p.getLsbD 0 = true) (i : Byte) : tblRead p i = 0#8 ↔ i = 0#8 :=
  crcShifts_eq_zero_iff hp 8 i

/-- Seven plain shifts bring the 1 to the top; the eighth shifts it out and XORs the polynomial into 0 (R71). -/
theorem tblRead_one (p : Byte) : tblRead p 1#8 = p := by
  calc tblRead p 1#8
    _ = crcShift p (crcShifts p 7 1#8) := rfl
    _ = crcShift p 0x80#8 := congrArg _ (crcShifts_of_lt p (by decide))
    _ = 0#8 ^^^ p := rfl
    _ = p := BitVec.zero_xor

theorem tblRead_zeroPoly (i : Byte) : tblRead 0#8 i = 0#8 := by
  rw [tblRead, crcShifts_zeroPoly, BitVec.shiftLeft_eq_zero (Nat.le_refl 8)]

/-- Settles O15: each of the table's eight steps is linear (`crcShift_xor`). -/
theorem crcTableIsLinear : Obligations.CrcTableIsLinear := tblRead_xor

/-- Settles O14: a register that holds 0 or meets polynomial 0 is only ever shifted, and a 1 leaves it in the last step. -/
theorem crcTableFirstEntries : Obligations.CrcTableFirstEntries := ⟨tblRead_zero, tblRead_one, tblRead_zeroPoly⟩

/-! ### The checksum -/

theorem checksumFrom_cons (p init b : Byte) (l : List Byte) :
    checksumFrom p init (b :: l) = checksumFrom p (tblRead p (init ^^^ b)) l := rfl

theorem checksum_append (a b : List Byte) (p : Byte) : checksum (a ++ b) p = checksumFrom p (checksum a p) b :=
  List.foldl_append

theorem checksum_concat (l : List Byte) (b p : Byte) : checksum (l ++ [b]) p = tblRead p (checksum l p ^^^ b) :=
  checksum_append l [b] p

/-- Linearity of the fold, over the initial states too. -/
theorem checksumFrom_xor (p : Byte) {a b : List Byte} (h : a.length = b.length) (i j : Byte) :
    checksumFrom p (i ^^^ j) (List.zipWith (· ^^^ ·) a b) = checksumFrom p i a ^^^ checksumFrom p j b := by
  induction a generalizing b i j with
  | nil =>
    obtain rfl := List.length_eq_zero_iff.1 h.symm
    rfl
  | cons x xs ih =>
    cases b with
    | nil => cases h
    | cons y ys =>
      have hstate : tblRead p (i ^^^ j ^^^ (x ^^^ y)) = tblRead p (i ^^^ x) ^^^ tblRead p (j ^^^ y) := by
        rw [← tblRead_xor]
        ac_rfl
      rw [List.zipWith_cons_cons, checksumFrom_cons, hstate, ih (Nat.succ.inj h), checksumFrom_cons, checksumFrom_cons]

/-- Settles O16: a fold over an append goes on from the first fold (`checksum_append`). -/
theorem checksumFoldsTheTable : Obligations.ChecksumFoldsTheTable :=
  ⟨fun _ => rfl, checksum_concat, checksum_append⟩

/-- Settles O17: both lists start from state 0, which is 0 XOR 0 (`checksumFrom_xor`). -/
theorem checksumIsLinear : Obligations.ChecksumIsLinear :=
  fun _ _ p h => checksumFrom_xor p h Config.crcInit Config.crcInit

/-! ### Sealed lists -/

/-- Where the polynomial has its constant term, no other last byte than the checksum gives 0. -/
theorem checksum_concat_eq_zero_iff {p : Byte} (hp : p.getLsbD 0 = true) (l : List Byte) (b : Byte) :
    checksum (l ++ [b]) p = 0#8 ↔ checksum l p = b := by
  rw [checksum_concat, tblRead_eq_zero_iff hp, BitVec.xor_eq_zero_iff]

/-- A payload of eight bytes is its first seven with the byte at offset 7 after them. -/
theorem take_concat_memRead8 {bytes : List Byte} (h : bytes.length = 8) :
    bytes.take 7 ++ [memRead8 bytes 7] = bytes := by
  have hlt : 7 < bytes.length := by omega
  rw [memRead8, List.getD_eq_getElem _ _ hlt, List.take_append_getElem hlt, List.take_of_length_le (by omega)]

/-- Settles O18: the last look-up of a sealed list is at the checksum XORed with itself, which is entry 0 (R75); and 0x85
has its constant term, so no other last byte passes (`checksum_concat_eq_zero_iff`). -/
theorem sealedListHasChecksumZero : Obligations.SealedListHasChecksumZero := by
  refine ⟨fun l p => ?_, fun bytes hlength => ?_⟩
  · rw [checksum_concat, BitVec.xor_self, tblRead_zero]
  · have hzero := checksum_concat_eq_zero_iff (p := 0x85#8) rfl (bytes.take 7) (memRead8 bytes 7)
    rw [take_concat_memRead8 hlength] at hzero
    exact hzero.symm

/-! ### The two operations -/

theorem exec_crcTbl (p i : Byte) (s : State) : exec (.crcTbl p i) s = .next (respond (.entry (tblRead p i)) s) := rfl

theorem exec_crcSum (p : Byte) (bytes : List Byte) (s : State) :
    exec (.crcSum p bytes) s = .next (respond (.crc (checksum bytes p)) s) := rfl

/-- Settles O19: `respond` writes the response port and nothing else. -/
theorem crcOperationsComplete : Obligations.CrcOperationsComplete := ⟨exec_crcTbl, exec_crcSum⟩

end Sys2Proof.Machine
end

section
/-!
PROOFS. The statements of 41_can_codec.md about the frames CAN.ENC builds and the variants it rejects (R82 to R85), the
fields CAN.DEC extracts (R91 to R95), and what a CAN.DEC that fails answers (R96). The layout is the default one (D7, log 9).
-/

namespace Sys2Proof.Machine

/-! ### CAN.ENC -/

/-- The counter in the top two bits, the default filler 0 below it (R54). -/
theorem counterByte_default (counter : BitVec 2) : counterByte defaultLayout counter = counter ++ 0#6 := by
  revert counter
  decide

/-- R82: what CAN.ENC answers for a TorqueRequest; of the counter operand its two low bits. -/
theorem exec_canEnc_torqueRequest (torque : I16) (counter : Byte) (s : State) :
    exec (.canEnc 0#3 torque counter) s =
      .next (respond (.frame .torqueRequest 0x14D#11 (sealPayload [torque.extractLsb' 0 8, torque.extractLsb' 8 8,
        counter.extractLsb' 0 2 ++ 0#6, 0#8, 0#8, 0#8, 0#8])) s) := by
  rw [← counterByte_default]
  rfl

/-- R83: what CAN.ENC answers for a VcmKeepAlive1; the torque operand is not used. -/
theorem exec_canEnc_vcmKeepAlive1 (torque : I16) (counter : Byte) (s : State) :
    exec (.canEnc 1#3 torque counter) s =
      .next (respond (.frame .vcmKeepAlive1 0x11A#11 (sealPayload [counter, 0#8, 0#8, 0#8, 0#8, 0#8, 0#8])) s) := rfl

/-- R84: what CAN.ENC answers for a VcmKeepAlive2; neither operand is used. -/
theorem exec_canEnc_vcmKeepAlive2 (torque : I16) (counter : Byte) (s : State) :
    exec (.canEnc 2#3 torque counter) s =
      .next (respond (.frame .vcmKeepAlive2 0x50B#11 [0#8, 0#8, 0#8, 0#8, 0#8, 0#8, 0#8]) s) := rfl

theorem variantOfSel_eq_none {v : BitVec 3} (h : 5 ≤ v.toNat) : variantOfSel v = none := by
  unfold variantOfSel
  split
  case h_6 => rfl
  all_goals omega

/-- Settles O20: `respond` writes the response port alone, and the three frames are those of the `exec_canEnc` lemmas. -/
theorem canEncBuildsFrames : Obligations.CanEncBuildsFrames :=
  ⟨exec_canEnc_torqueRequest, exec_canEnc_vcmKeepAlive1, exec_canEnc_vcmKeepAlive2⟩

/-- Settles O21: the selectors 3 and 4 are the receive-only variants', and those above 4 name none. -/
theorem canEncRejects : Obligations.CanEncRejects := by
  refine ⟨fun v torque counter s hv => ?_, fun v torque counter s hv => ?_⟩
  · obtain rfl | rfl := hv
    · rfl
    · rfl
  · simp only [exec, execCanEnc, variantOfSel_eq_none hv]

/-! ### CAN.DEC of a frame that passes every check -/

/-- R90's comparison, for the eight bytes by name. -/
theorem crcOk_of_checksum {b0 b1 b2 b3 b4 b5 b6 b7 : Byte} (h : checksum [b0, b1, b2, b3, b4, b5, b6] 0x85#8 = b7) :
    crcOk [b0, b1, b2, b3, b4, b5, b6, b7] = true := (crcOk_iff _).2 h

theorem decodePayload_of_passes (L : Config.Layout) {v : Variant} {len : BitVec 4} {bytes : List Byte}
    (hlen : lengthOk v len = true) (hcrc : crcBearing v = true → crcOk bytes = true) :
    decodePayload L v true len bytes = .ok (extract L v bytes) := by
  obtain ⟨hdata, -⟩ | ⟨-, hbad, -⟩ | ⟨-, -, hbearing, hbad, -⟩ | ⟨-, -, -, h⟩ :=
    decodePayload_cases L v true len bytes
  · cases hdata
  · exact absurd hlen (by simp [hbad])
  · exact absurd (hcrc hbearing) (by simp [hbad])
  · exact h

/-- The one way CAN.DEC answers OK: the message extracted from a payload that passes (R86). -/
theorem exec_canDec_of_passes {v : Variant} {len : BitVec 4} {bytes : List Byte} {m : Message}
    (hlen : lengthOk v len = true) (hcrc : crcBearing v = true → crcOk bytes = true)
    (hm : extract defaultLayout v bytes = m) (s : State) :
    exec (.canDec (variantId v) true len bytes) s = .next (respond (.message m) s) := by
  rw [exec_canDec_variantId, decodePayload_of_passes defaultLayout hlen hcrc, hm]
  rfl

/-- A frame row that decodes as the variant answers the same message (log 4). -/
theorem exec_canDec_and_row_of_passes {v : Variant} {len : BitVec 4} {bytes : List Byte} {m : Message} {row : Instr}
    {s : State} (hlen : lengthOk v len = true) (hcrc : crcBearing v = true → crcOk bytes = true)
    (hm : extract defaultLayout v bytes = m)
    (hrow : exec row s = exec (.canDec (variantId v) true len bytes) s) :
    exec (.canDec (variantId v) true len bytes) s = .next (respond (.message m) s) ∧
      exec row s = .next (respond (.message m) s) := by
  have hdec := exec_canDec_of_passes hlen hcrc hm s
  exact ⟨hdec, hrow.trans hdec⟩

/-- R91, with the counter written as bits 7:6 of byte 2. -/
theorem extract_torqueRequest (b0 b1 b2 : Byte) (rest : List Byte) :
    extract defaultLayout .torqueRequest (b0 :: b1 :: b2 :: rest) =
      .torqueRequest (b1 ++ b0) (b2.extractLsb' 6 2) :=
  congrArg (Message.torqueRequest (b1 ++ b0)) BitVec.setWidth_ushiftRight_eq_extractLsb

/-- R59: the scaled voltage fits 32 bits. -/
theorem millivoltOf_toNat (raw : BitVec 16) : (millivoltOf raw).toNat = raw.toNat * 500 := by
  have hraw := raw.isLt
  simp only [millivoltOf, Config.mvScale, BitVec.toNat_mul, BitVec.toNat_setWidth, BitVec.toNat_ofNat]
  omega

/-- Settles O23: each frame passes its variant's checks, and the fields are those `extract` reads from its bytes. -/
theorem canDecExtractsFields : Obligations.CanDecExtractsFields := by
  intro b0 b1 b2 b3 b4 b5 b6 b7 s
  refine ⟨fun h => ?torqueRequest, fun h => ?keepAlive1, ?keepAlive2, ⟨millivoltOf (b1 ++ b0), ?voltage, ?status⟩,
    fun rest hrest => ?temperature⟩
  case torqueRequest =>
    exact exec_canDec_and_row_of_passes rfl (fun _ => crcOk_of_checksum h) (extract_torqueRequest b0 b1 b2 _) rfl
  case keepAlive1 =>
    exact exec_canDec_and_row_of_passes (v := .vcmKeepAlive1) rfl (fun _ => crcOk_of_checksum h) rfl rfl
  case keepAlive2 => exact exec_canDec_and_row_of_passes (v := .vcmKeepAlive2) rfl nofun rfl rfl
  case voltage =>
    rw [millivoltOf_toNat, toNat_append]
    omega
  case status => exact exec_canDec_and_row_of_passes (v := .inverterStatus) rfl nofun rfl rfl
  case temperature =>
    have hlen : lengthOk .inverterTemperature (BitVec.ofNat 4 (2 + rest.length)) = true := by
      rw [lengthOk_iff, BitVec.toNat_ofNat]
      exact .inr (.inr (.inr (.inr ⟨rfl, by omega⟩)))
    exact exec_canDec_and_row_of_passes hlen nofun rfl rfl

/-! ### CAN.DEC of a frame that fails a check -/

/-- Settles O25: an answer is a message or an error, and an error packs to its code (`pack_error_toNat`). -/
theorem failedDecodeCarriesNothing : Obligations.FailedDecodeCarriesNothing := by
  intro id hasData len bytes s t h
  obtain rfl : answer (decodeRawFrame defaultLayout id hasData len bytes) s = t := Host.Outcome.next.inj h
  rcases decodeRawFrame defaultLayout id hasData len bytes with e | m
  · exact .inr ⟨e, rfl, pack_error_toNat e⟩
  · exact .inl ⟨m, rfl⟩

end Sys2Proof.Machine
end

section
/-!
PROOFS. The statements of 41_can_codec.md about whole frames: the round trip from CAN.ENC to CAN.DEC (R97) and the rejection
of a tampered frame (R98). The checksum of an error pattern of one bit is a power of x modulo the generator: it is never 0,
and the 64 bits of a payload give 64 different powers, because the order of x is at least 64 (`xPow_ne_one`).
-/

namespace Sys2Proof.Machine

/-! ### Sealed payloads -/

/-- A sealed payload carries the checksum of its seven bytes in byte 7, so it passes the check (R60, R90). -/
theorem sealPayload_passes {body : List Byte} (h : body.length = 7) :
    (sealPayload body).length = 8 ∧ checksum ((sealPayload body).take 7) 0x85#8 = memRead8 (sealPayload body) 7 := by
  have htake : (sealPayload body).take 7 = body := List.take_left' h
  have hread : memRead8 (sealPayload body) 7 = checksum body 0x85#8 := by
    simp [memRead8, sealPayload, h, Config.evPoly]
  refine ⟨by simp [sealPayload, h], ?_⟩
  rw [htake, hread]

theorem crcOk_sealPayload {body : List Byte} (h : body.length = 7) : crcOk (sealPayload body) = true :=
  (crcOk_iff _).2 (sealPayload_passes h).2

/-- The fields come back from where CAN.ENC wrote them (R82, R91). -/
theorem extract_sealed_torqueRequest (torque : I16) (counter : BitVec 2) :
    extract defaultLayout .torqueRequest (sealPayload [torque.extractLsb' 0 8, torque.extractLsb' 8 8,
      counter ++ 0#6, 0#8, 0#8, 0#8, 0#8]) = .torqueRequest torque counter := by
  calc extract defaultLayout .torqueRequest _
    _ = .torqueRequest (torque.extractLsb' 8 8 ++ torque.extractLsb' 0 8) ((counter ++ 0#6).extractLsb' 6 2) :=
      extract_torqueRequest _ _ _ _
    _ = .torqueRequest torque counter := by
      rw [BitVec.extractLsb'_append_extractLsb', BitVec.extractLsb'_append_eq_left]

/-! ### The frames of 95_test_vectors.md V9 and V11 -/

theorem checksumFrom_cons_of_entry {p i b e : Byte} (h : tblRead p (i ^^^ b) = e) (l : List Byte) :
    checksumFrom p i (b :: l) = checksumFrom p e l := by
  rw [checksumFrom_cons, h]

/-- V9's frame: torque 1000, counter 2. -/
theorem checksum_torque1000_counter2 : checksum [0xE8#8, 0x03#8, 0x80#8, 0#8, 0#8, 0#8, 0#8] 0x85#8 = 0x4A#8 := by
  calc checksumFrom 0x85#8 0#8 [0xE8#8, 0x03#8, 0x80#8, 0#8, 0#8, 0#8, 0#8]
    _ = checksumFrom 0x85#8 0xFF#8 [0x03#8, 0x80#8, 0#8, 0#8, 0#8, 0#8] := checksumFrom_cons_of_entry (by decide) _
    _ = checksumFrom 0x85#8 0x87#8 [0x80#8, 0#8, 0#8, 0#8, 0#8] := checksumFrom_cons_of_entry (by decide) _
    _ = checksumFrom 0x85#8 0x91#8 [0#8, 0#8, 0#8, 0#8] := checksumFrom_cons_of_entry (by decide) _
    _ = checksumFrom 0x85#8 0xEF#8 [0#8, 0#8, 0#8] := checksumFrom_cons_of_entry (by decide) _
    _ = checksumFrom 0x85#8 0x6E#8 [0#8, 0#8] := checksumFrom_cons_of_entry (by decide) _
    _ = checksumFrom 0x85#8 0x62#8 [0#8] := checksumFrom_cons_of_entry (by decide) _
    _ = 0x4A#8 := checksumFrom_cons_of_entry (by decide) _

/-- V11's frame: the same fields with other filler. -/
theorem checksum_torque1000_filler :
    checksum [0xE8#8, 0x03#8, 0xBF#8, 0x11#8, 0x22#8, 0x33#8, 0x44#8] 0x85#8 = 0x15#8 := by
  calc checksumFrom 0x85#8 0#8 [0xE8#8, 0x03#8, 0xBF#8, 0x11#8, 0x22#8, 0x33#8, 0x44#8]
    _ = checksumFrom 0x85#8 0xFF#8 [0x03#8, 0xBF#8, 0x11#8, 0x22#8, 0x33#8, 0x44#8] :=
      checksumFrom_cons_of_entry (by decide) _
    _ = checksumFrom 0x85#8 0x87#8 [0xBF#8, 0x11#8, 0x22#8, 0x33#8, 0x44#8] := checksumFrom_cons_of_entry (by decide) _
    _ = checksumFrom 0x85#8 0x13#8 [0x11#8, 0x22#8, 0x33#8, 0x44#8] := checksumFrom_cons_of_entry (by decide) _
    _ = checksumFrom 0x85#8 0x8F#8 [0x22#8, 0x33#8, 0x44#8] := checksumFrom_cons_of_entry (by decide) _
    _ = checksumFrom 0x85#8 0x67#8 [0x33#8, 0x44#8] := checksumFrom_cons_of_entry (by decide) _
    _ = checksumFrom 0x85#8 0xFE#8 [0x44#8] := checksumFrom_cons_of_entry (by decide) _
    _ = 0x15#8 := checksumFrom_cons_of_entry (by decide) _

/-- The generator's own nine bits, `01` and the polynomial, have checksum 0, and zeros after them keep it (R98). -/
theorem checksum_generator (p : Byte) : checksum [1#8, p, 0#8, 0#8, 0#8, 0#8, 0#8] p = 0#8 := by
  simp only [checksum, Config.crcInit, checksumFrom_cons, tblRead_one, BitVec.zero_xor, BitVec.xor_self, tblRead_zero]
  rfl

/-- So XORing them into V9's frame leaves its checksum (R98). -/
theorem checksum_fourBitError :
    checksum [0xE8#8 ^^^ 0x01#8, 0x03#8 ^^^ 0x85#8, 0x80#8, 0#8, 0#8, 0#8, 0#8] 0x85#8 = 0x4A#8 := by
  have hsum := checksumIsLinear [0xE8#8, 0x03#8, 0x80#8, 0#8, 0#8, 0#8, 0#8]
    [1#8, 0x85#8, 0#8, 0#8, 0#8, 0#8, 0#8] 0x85#8 rfl
  rw [checksum_torque1000_counter2, checksum_generator] at hsum
  exact hsum

/-! ### The round trip -/

/-- Settles O26: what CAN.ENC sealed passes the check, and `extract` reads the fields where CAN.ENC wrote them. V11's frame
passes too, and its filler is not what CAN.ENC writes. -/
theorem encodedFramesDecodeBack : Obligations.EncodedFramesDecodeBack := by
  refine ⟨fun torque counter s => ?torqueRequest, fun torque counter s => ?keepAlive1,
    fun torque counter s => ?keepAlive2, fun s => ⟨?decoded, ?encoded, by decide⟩⟩
  case torqueRequest =>
    exact ⟨_, _, exec_canEnc_torqueRequest torque counter s, rfl, _,
      exec_canDec_of_passes (v := .torqueRequest) rfl (fun _ => crcOk_sealPayload rfl)
        (extract_sealed_torqueRequest _ _) _, rfl⟩
  case keepAlive1 =>
    exact ⟨_, _, exec_canEnc_vcmKeepAlive1 torque counter s, rfl, _,
      exec_canDec_of_passes (v := .vcmKeepAlive1) rfl (fun _ => crcOk_sealPayload rfl) rfl _, rfl⟩
  case keepAlive2 =>
    exact ⟨_, _, exec_canEnc_vcmKeepAlive2 torque counter s, rfl, _,
      exec_canDec_of_passes (v := .vcmKeepAlive2) rfl nofun rfl _, rfl⟩
  case decoded =>
    exact exec_canDec_of_passes (v := .torqueRequest) rfl (fun _ => crcOk_of_checksum checksum_torque1000_filler) rfl s
  case encoded =>
    have hseal : sealPayload [0xE8#8, 0x03#8, 0x80#8, 0#8, 0#8, 0#8, 0#8] =
        [0xE8#8, 0x03#8, 0x80#8, 0#8, 0#8, 0#8, 0#8, 0x4A#8] := by
      rw [sealPayload, checksum_torque1000_counter2]
      rfl
    rw [← hseal]
    exact exec_canEnc_torqueRequest 1000#16 2#8 s

/-! ### The checksum of an error pattern -/

theorem crcShifts_add (p : Byte) (m n : Nat) (r : Byte) : crcShifts p (m + n) r = crcShifts p n (crcShifts p m r) := by
  induction m generalizing r with
  | zero => rw [Nat.zero_add, crcShifts]
  | succ m ih => rw [Nat.succ_add, crcShifts, ih, crcShifts]

/-- Steps of a polynomial with constant term lose nothing, so they keep different register values apart. -/
theorem crcShifts_inj {p : Byte} (hp : p.getLsbD 0 = true) (n : Nat) {a b : Byte} :
    crcShifts p n a = crcShifts p n b ↔ a = b := by
  rw [← BitVec.xor_eq_zero_iff, ← crcShifts_xor, crcShifts_eq_zero_iff hp, BitVec.xor_eq_zero_iff]

/-- A difference in the checksum state goes through eight steps for every byte still to come. -/
theorem checksumFrom_xor_state (p i d : Byte) (l : List Byte) :
    checksumFrom p (i ^^^ d) l = checksumFrom p i l ^^^ crcShifts p (8 * l.length) d := by
  induction l generalizing i d with
  | nil => rfl
  | cons b l ih =>
    have hstate : tblRead p (i ^^^ d ^^^ b) = tblRead p (i ^^^ b) ^^^ tblRead p d := by
      rw [← tblRead_xor]
      ac_rfl
    have hsteps : crcShifts p (8 * l.length) (tblRead p d) = crcShifts p (8 * (l.length + 1)) d := by
      rw [tblRead, ← crcShifts_add, Nat.mul_succ, Nat.add_comm]
    rw [checksumFrom_cons, hstate, ih, hsteps, checksumFrom_cons, List.length_cons]

/-- An error pattern in byte `k` goes through eight steps for that byte and for each after it. -/
theorem checksumFrom_set_xor (p i d : Byte) {l : List Byte} {k : Nat} (h : k < l.length) :
    checksumFrom p i (l.set k (memRead8 l k ^^^ d)) = checksumFrom p i l ^^^ crcShifts p (8 * (l.length - k)) d := by
  induction l generalizing k i with
  | nil => cases h
  | cons b l ih =>
    cases k with
    | zero =>
      have hread : memRead8 (b :: l) 0 ^^^ d = d ^^^ b := BitVec.xor_comm b d
      rw [List.set_cons_zero, hread, checksumFrom_cons, ← BitVec.xor_assoc]
      exact checksumFrom_xor_state p i d (b :: l)
    | succ k =>
      have hread : memRead8 (b :: l) (k + 1) = memRead8 l k := rfl
      rw [List.set_cons_succ, hread, checksumFrom_cons, ih _ (Nat.lt_of_succ_lt_succ h), checksumFrom_cons,
        List.length_cons, Nat.succ_sub_succ]

/-! ### Powers of x -/

/-- x to the power `n` modulo the generator of the vehicle frames, x^8 + x^7 + x^2 + 1 (R98). -/
def xPow (n : Nat) : Byte := crcShifts Config.evPoly n 1#8

/-- The power of x that bit `j` of a payload of `n` bytes stands for in its checksum: its place in its byte, and eight for
that byte and for each after it. -/
def bitPower (n j : Nat) : Nat := 8 * (n - j / 8) + j % 8

theorem xPow_ne_zero (n : Nat) : xPow n ≠ 0#8 := by
  rw [xPow, Ne, crcShifts_eq_zero_iff rfl]
  decide

/-- The order of x modulo the generator is at least 64. -/
theorem xPow_ne_one : ∀ n < 64, 0 < n → xPow n ≠ 1#8 := by
  decide

theorem xPow_ne_of_lt {m n : Nat} (hlt : m < n) (hn : n < m + 64) : xPow m ≠ xPow n := by
  intro h
  have hsplit : xPow n = crcShifts Config.evPoly m (xPow (n - m)) := by
    rw [xPow, xPow, ← crcShifts_add, Nat.sub_add_cancel (Nat.le_of_lt hlt)]
  rw [hsplit, xPow, crcShifts_inj rfl] at h
  exact xPow_ne_one (n - m) (by omega) (by omega) h.symm

theorem xPow_bitPower_ne {j k : Nat} (hj : j < 64) (hk : k < 64) (hjk : j ≠ k) :
    xPow (bitPower 8 j) ≠ xPow (bitPower 8 k) := by
  have hpowers : bitPower 8 j < bitPower 8 k ∨ bitPower 8 k < bitPower 8 j := by
    unfold bitPower
    omega
  obtain h | h := hpowers
  · exact xPow_ne_of_lt h (by unfold bitPower; omega)
  · exact (xPow_ne_of_lt h (by unfold bitPower; omega)).symm

/-! ### Flipped bits -/

@[simp] theorem flipBit_length (bytes : List Byte) (j : Nat) : (flipBit bytes j).length = bytes.length :=
  List.length_set

/-- Flipping a bit adds its power of x to the checksum. -/
theorem checksum_flipBit {bytes : List Byte} {j : Nat} (h : j < 8 * bytes.length) :
    checksum (flipBit bytes j) 0x85#8 = checksum bytes 0x85#8 ^^^ xPow (bitPower bytes.length j) := by
  have hmask : 1#8 <<< (j % 8) = crcShifts 0x85#8 (j % 8) 1#8 := by
    refine (crcShifts_of_lt _ ?_).symm
    rw [BitVec.toNat_ofNat, Nat.one_mod_eq_one.2 (by decide), Nat.one_mul]
    exact Nat.pow_lt_pow_right (by decide) (Nat.mod_lt j (by decide))
  have hset := checksumFrom_set_xor 0x85#8 Config.crcInit (1#8 <<< (j % 8)) (k := j / 8) (l := bytes) (by omega)
  rw [hmask, ← crcShifts_add, Nat.add_comm] at hset
  rw [flipBit, hmask]
  exact hset

/-- A payload of eight bytes whose whole checksum is not 0 is rejected under a CRC-bearing identifier (R75, R90). -/
theorem exec_canDec_badCrc {v : Variant} {bytes : List Byte} (hbearing : crcBearing v = true)
    (hlength : bytes.length = 8) (hsum : checksum bytes 0x85#8 ≠ 0#8) (s : State) :
    exec (.canDec (variantId v) true 8#4 bytes) s = .next (raise .badCrc s) := by
  have hcrc : ¬ crcOk bytes = true := by rwa [crcOk_iff, sealedListHasChecksumZero.2 bytes hlength]
  have hlen : lengthOk v 8#4 = true := (lengthOk_iff v 8#4).2 <| by
    obtain hid | hid := (crcBearing_iff v).1 hbearing
    · exact .inl ⟨hid, rfl⟩
    · exact .inr (.inl ⟨hid, rfl⟩)
  rw [exec_canDec_variantId]
  obtain ⟨hdata, -⟩ | ⟨-, hbad, -⟩ | ⟨-, -, -, -, h⟩ | ⟨-, -, hok, -⟩ :=
    decodePayload_cases defaultLayout v true 8#4 bytes
  · cases hdata
  · exact absurd hlen (by simp [hbad])
  · rw [h]
    rfl
  · exact absurd (hok hbearing) hcrc

/-- An identifier that is none of the five is rejected whatever the payload (R87). -/
theorem exec_canDec_unknownFrame {id : CanId} (h : id.toNat ∉ [0x14D, 0x11A, 0x50B, 0x1DA, 0x55A]) (hasData : Bool)
    (len : BitVec 4) (bytes : List Byte) (s : State) :
    exec (.canDec id hasData len bytes) s = .next (raise .unknownFrame s) := by
  rw [exec, execCanDec, decodeRawFrame, variantOf_of_unknown h]
  rfl

/-- No CRC-bearing identifier is one bit away from any of the five. -/
theorem flippedId_unknown {v : Variant} (hbearing : crcBearing v = true) :
    ∀ j < 11, (variantId v ^^^ (1#11 <<< j)).toNat ∉ [0x14D, 0x11A, 0x50B, 0x1DA, 0x55A] := by
  cases v with
  | torqueRequest => decide
  | vcmKeepAlive1 => decide
  | _ => cases hbearing

/-- Settles O27: a passing payload has checksum 0, so flipped bits leave the sum of their powers of x, and neither one power
nor the sum of two different ones is 0. -/
theorem tamperedFramesAreRejected : Obligations.TamperedFramesAreRejected := by
  refine ⟨fun bytes s hlength hpasses id hid => ?tampered, fun torque counter s => ?torqueRequest,
    fun torque counter s => ?keepAlive1, fun s => ?fourBits⟩
  case tampered =>
    obtain ⟨v, rfl⟩ : ∃ v, variantId v = id := exists_variantId (by obtain rfl | rfl := hid <;> decide)
    have hbearing := (crcBearing_iff v).2 hid
    have hzero : checksum bytes 0x85#8 = 0#8 := (sealedListHasChecksumZero.2 bytes hlength).1 hpasses
    have hflip (j : Nat) (hj : j < 64) : checksum (flipBit bytes j) 0x85#8 = xPow (bitPower 8 j) := by
      rw [checksum_flipBit (by omega), hzero, BitVec.zero_xor, hlength]
    refine ⟨fun j hj => ?_, fun j hj k hk hjk => ?_, fun j hj => ?_⟩
    · refine exec_canDec_badCrc hbearing (by simp [hlength]) ?_ s
      rw [hflip j hj]
      exact xPow_ne_zero _
    · refine exec_canDec_badCrc hbearing (by simp [hlength]) ?_ s
      rw [checksum_flipBit (by rw [flipBit_length]; omega), hflip j hj, flipBit_length, hlength, Ne,
        BitVec.xor_eq_zero_iff]
      exact xPow_bitPower_ne hj hk hjk
    · exact exec_canDec_unknownFrame (flippedId_unknown hbearing j hj) true 8#4 bytes s
  case torqueRequest => exact ⟨_, exec_canEnc_torqueRequest torque counter s, sealPayload_passes rfl⟩
  case keepAlive1 => exact ⟨_, exec_canEnc_vcmKeepAlive1 torque counter s, sealPayload_passes rfl⟩
  case fourBits =>
    exact exec_canDec_of_passes (v := .torqueRequest) rfl (fun _ => crcOk_of_checksum checksum_fourBitError) rfl s

end Sys2Proof.Machine
end

section
/-!
PROOFS. The statements of 42_throttle.md: the maps that MAP.NEW and THR.NEW store (R100, R104), the value MAP.MAP answers
(R101 to R103), and the position THR.POS fuses from the two sensors (R105 to R107).
-/

namespace Sys2Proof.Machine

/-! ### The calibrator -/

/-- R110: a constructed map does not remember the order of its bounds. -/
theorem ofBounds_comm (a b : Raw) : SensorMap.ofBounds a b = SensorMap.ofBounds b a := by
  unfold SensorMap.ofBounds
  split
  · split
    · have hab : a = b := BitVec.eq_of_toNat_eq (by omega)
      rw [hab]
    · rfl
  · rw [if_pos (by omega)]

/-- R101: inside the closed interval of a map that is not degenerate there is a value, the scaled quotient. -/
theorem map_of_mem {m : SensorMap} {x : Raw} (hlt : m.min.toNat < m.max.toNat) (hlo : m.min.toNat ≤ x.toNat)
    (hhi : x.toNat ≤ m.max.toNat) :
    ∃ y, m.map x = some y ∧ y.toNat = (x.toNat - m.min.toNat) * 65535 / (m.max.toNat - m.min.toNat) := by
  cases h : m.map x with
  | none =>
    obtain heq | hbelow | habove := map_eq_none.1 h
    · rw [heq] at hlt
      omega
    · omega
    · omega
  | some y =>
    obtain ⟨-, -, -, hy⟩ := map_eq_some h
    exact ⟨y, rfl, hy⟩

/-- The lower end is mapped to 0 (96_test_programs.md Q8). -/
theorem map_min {m : SensorMap} (hlt : m.min.toNat < m.max.toNat) : m.map m.min = some 0#16 := by
  obtain ⟨y, hy, hval⟩ := map_of_mem hlt (Nat.le_refl _) (Nat.le_of_lt hlt)
  rw [Nat.sub_self, Nat.zero_mul, Nat.zero_div] at hval
  rw [hy, BitVec.eq_of_toNat_eq (y := 0#16) hval]

/-- The upper end is mapped to full throttle (96_test_programs.md Q8). -/
theorem map_max {m : SensorMap} (hlt : m.min.toNat < m.max.toNat) : m.map m.max = some 65535#16 := by
  obtain ⟨y, hy, hval⟩ := map_of_mem hlt (Nat.le_of_lt hlt) (Nat.le_refl _)
  rw [Nat.mul_div_cancel_left _ (Nat.sub_pos_of_lt hlt)] at hval
  rw [hy, BitVec.eq_of_toNat_eq (y := 65535#16) hval]

theorem exec_mapNew (m : MapSel) (a b : Raw) (s : State) :
    exec (.mapNew m a b) s = .next (respond .done (setMap m (SensorMap.ofBounds a b) s)) := rfl

theorem exec_mapMap (m : MapSel) (x : Raw) (s : State) :
    exec (.mapMap m x) s = .next (respond (.mapped ((s.maps.get m).map x)) s) := rfl

theorem exec_thrNew (a1 b1 a2 b2 : Raw) (tol : Pos) (s : State) :
    exec (.thrNew a1 b1 a2 b2 tol) s = .next (respond .done
      (setTol tol (setMap .map2 (SensorMap.ofBounds a2 b2) (setMap .map1 (SensorMap.ofBounds a1 b1) s)))) := rfl

/-- Settles O30: MAP.MAP answers what the map gives, `map_eq_none` says when that is no value, and otherwise its input lies
in the interval (`map_of_mem`). -/
theorem mapMapScalesOrRejects : Obligations.MapMapScalesOrRejects := by
  intro m x s lo hi
  refine ⟨_, exec_mapMap m x s, ?_⟩
  split
  next heq => exact map_eq_none.2 (.inl (BitVec.eq_of_toNat_eq heq))
  next hne =>
    split
    next hout => exact map_eq_none.2 (.inr hout)
    next hin => exact map_of_mem (by omega) (by omega) (by omega)

/-- Settles O31: the ends are `map_min` and `map_max`, and the scaled quotient grows with its numerator. -/
theorem mapEndsAndMonotone : Obligations.MapEndsAndMonotone := by
  intro m hlt
  refine ⟨map_min hlt, map_max hlt, fun x x' hlo hle hhi => ?_⟩
  obtain ⟨y, hy, hval⟩ := map_of_mem hlt hlo (hle.trans hhi)
  obtain ⟨y', hy', hval'⟩ := map_of_mem hlt (hlo.trans hle) hhi
  refine ⟨y, y', hy, hy', ?_⟩
  rw [hval, hval']
  exact Nat.div_le_div_right (Nat.mul_le_mul_right _ (Nat.sub_le_sub_right hle _))

/-- Settles O29: the map stored is `SensorMap.ofBounds`, which orders its bounds and forgets their order. -/
theorem mapNewNormalises : Obligations.MapNewNormalises := fun m a b s =>
  ⟨⟨_, exec_mapNew m a b s, ofBounds_toNat a b⟩, by rw [exec_mapNew, exec_mapNew, ofBounds_comm]⟩

/-- Settles O32: the two writes of the maps replace the whole map file, and each map stored orders its bounds. -/
theorem thrNewWritesTheThrottle : Obligations.ThrNewWritesTheThrottle := by
  intro a1 b1 a2 b2 tol s
  obtain ⟨hmin1, hmax1⟩ := ofBounds_toNat a1 b1
  obtain ⟨hmin2, hmax2⟩ := ofBounds_toNat a2 b2
  exact ⟨_, _, exec_thrNew a1 b1 a2 b2 tol s, hmin1, hmax1, hmin2, hmax2⟩

/-! ### The comparator -/

theorem absDiff_eq (p1 p2 : Pos) : absDiff p1 p2 = max p1.toNat p2.toNat - min p1.toNat p2.toNat := by
  unfold absDiff
  omega

/-- R106: values further apart than the tolerance do not match. -/
theorem fuse_of_lt {tol p1 p2 : Pos} (h : tol.toNat < absDiff p1 p2) : fuse tol p1 p2 = .error .sensorMismatch :=
  if_pos h

/-- R107: values within the tolerance give their truncated mean. -/
theorem fuse_of_le {tol p1 p2 : Pos} (h : absDiff p1 p2 ≤ tol.toNat) :
    ∃ p, fuse tol p1 p2 = .ok p ∧ p.toNat = (p1.toNat + p2.toNat) / 2 := by
  have hok : fuse tol p1 p2 = .ok _ := if_neg (Nat.not_lt.2 h)
  obtain ⟨-, hmean⟩ := fuse_eq_ok hok
  exact ⟨_, hok, hmean⟩

/-- R105: a sensor that does not map is out of range, whatever the other one reads. -/
theorem fusedPosition_of_unmapped {s : State} {s1 s2 : Raw}
    (h : s.maps.map1.map s1 = none ∨ s.maps.map2.map s2 = none) :
    fusedPosition s s1 s2 = .error .sensorOutOfRange := by
  unfold fusedPosition
  split
  next h1 h2 => simp [h1, h2] at h
  next => rfl

/-- R105: two sensors that map are compared. -/
theorem fusedPosition_of_mapped {s : State} {s1 s2 : Raw} {p1 p2 : Pos} (h1 : s.maps.map1.map s1 = some p1)
    (h2 : s.maps.map2.map s2 = some p2) : fusedPosition s s1 s2 = fuse s.tol p1 p2 := by
  simp only [fusedPosition, h1, h2]

theorem exec_thrPos_of_ok {s : State} {s1 s2 : Raw} {p : Pos} (h : fusedPosition s s1 s2 = .ok p) :
    exec (.thrPos s1 s2) s = .next (respond (.position p) s) := by
  simp only [exec, execThrPos, h]

theorem exec_thrPos_of_error {s : State} {s1 s2 : Raw} {e : ThrottleError} (h : fusedPosition s s1 s2 = .error e) :
    exec (.thrPos s1 s2) s = .next (raise e.kind s) := by
  simp only [exec, execThrPos, h]

/-- Settles O33: THR.POS answers the fused position or its error, and `fusedPosition` checks the range before it compares;
the truncated mean of two numbers lies between them. -/
theorem thrPosFusesTwoSensors : Obligations.ThrPosFusesTwoSensors := by
  refine fun s1 s2 s => ⟨fun h => exec_thrPos_of_error (fusedPosition_of_unmapped h), fun p1 p2 h1 h2 => ?_⟩
  have hfused := fusedPosition_of_mapped h1 h2
  rw [← absDiff_eq]
  refine ⟨fun hfar => exec_thrPos_of_error (hfused.trans (fuse_of_lt hfar)), fun hnear => ?_⟩
  obtain ⟨p, hp, hmean⟩ := fuse_of_le hnear
  exact ⟨p, exec_thrPos_of_ok (hfused.trans hp), hmean, by omega, by omega⟩

end Sys2Proof.Machine
end

section
/-!
PROOFS. The statements of 43_timeout.md: what TMO.NEW, TMO.TICK and TMO.RESET do on a defined slot (R116 to R118), and the
number of ticks a constructed Timeout accepts (R117, R119).
-/

namespace Sys2Proof.Machine

/-! ### The three operations on a defined slot -/

section
variable {t : BitVec 3} {slot : Slot} {s : State} (hslot : slotOf t = some slot)
include hslot

/-- R116. -/
theorem exec_tmoNew (val : Tick) :
    exec (.tmoNew t val) s = .next (respond (.counter val) (setTmo slot (Timeout.ofReset val) s)) := by
  simp only [exec, execTmoNew, hslot]

/-- R118. -/
theorem exec_tmoReset :
    exec (.tmoReset t) s = .next (respond (.counter (s.tmo.get slot).rv) (restart slot s)) := by
  simp only [exec, execTmoReset, hslot, restart_tmo, timeoutFile_get_set_same, Timeout.restart]

/-- R117: a tick above 0 is the micro-operation's decrement (`tick_of_pos`), and its counter is returned. -/
theorem exec_tmoTick_of_pos (h : 0 < (s.tmo.get slot).cnt.toNat) :
    exec (.tmoTick t) s = .next (respond (.counter ((s.tmo.get slot).cnt - 1#32))
      (setTmo slot ⟨(s.tmo.get slot).rv, (s.tmo.get slot).cnt - 1#32⟩ s)) := by
  obtain ⟨htick, -⟩ := tick_of_pos h
  simp only [exec, execTmoTick, hslot, htick, setTmo_tmo, timeoutFile_get_set_same]

/-- R117: a tick at 0 writes nothing (`tick_of_zero`). -/
theorem exec_tmoTick_of_zero (h : (s.tmo.get slot).cnt.toNat = 0) :
    exec (.tmoTick t) s = .next (raise .elapsed s) := by
  simp only [exec, execTmoTick, hslot, tick_of_zero h]

end

/-- Settles O34: the one write stores the Timeout (val, val), and the value is returned. -/
theorem tmoNewConstructs : Obligations.TmoNewConstructs :=
  fun _ _ val _ hslot => exec_tmoNew hslot val

/-- Settles O35: above 0 the tick takes one from the counter, which does not wrap (`tick_of_pos`); at 0 it fails. -/
theorem tmoTickCountsDown : Obligations.TmoTickCountsDown := by
  refine fun t slot s hslot => ⟨fun hpos => ?_, exec_tmoTick_of_zero hslot⟩
  obtain ⟨-, hlower⟩ := tick_of_pos hpos
  exact ⟨_, hlower, exec_tmoTick_of_pos hslot hpos⟩

/-- Settles O36: the restart stores the reset value in the counter and has no failing case. -/
theorem tmoResetRestarts : Obligations.TmoResetRestarts :=
  fun _ _ _ hslot => exec_tmoReset hslot

/-! ### A run of ticks -/

/-- One instruction issued again and again: if from what holds after `j` of them the next one completes, answers
`answerAt j`, and leaves what holds after `j + 1`, then so do any `k` of them in a row. -/
theorem runInstrs_replicate {i : Instr} {answerAt : Nat → Option Response} {HoldsAfter : Nat → State → Prop}
    (hnext : ∀ j s, HoldsAfter j s → ∃ t, exec i s = .next t ∧ t.response = answerAt j ∧ HoldsAfter (j + 1) t)
    (k j : Nat) (s : State) (hs : HoldsAfter j s) :
    ∃ u, runInstrs (List.replicate k i) s = some ((List.range' j k).map answerAt, u) ∧ HoldsAfter (j + k) u := by
  induction k generalizing j s with
  | zero => exact ⟨s, rfl, hs⟩
  | succ k ih =>
    obtain ⟨t, hexec, hanswer, ht⟩ := hnext j s hs
    obtain ⟨u, hrun, hu⟩ := ih (j + 1) t ht
    refine ⟨u, ?_, by rwa [Nat.add_right_comm] at hu⟩
    rw [List.replicate_succ, runInstrs_cons hexec, hrun, hanswer, Option.map_some, List.range'_succ, List.map_cons]

/-- What a tick answers after `j` ticks of a Timeout that counted `n`: the count below, or the error `e` once it has run
out. -/
def countdownAnswer (n : Nat) (e : ErrorKind) (j : Nat) : Option Response :=
  if j < n then some (.ok (.counter (BitVec.ofNat 32 (n - 1 - j)))) else some (.error e)

/-- What holds after `j` ticks of a Timeout constructed with `val` while the flags were `flt`. -/
structure CountedDown (slot : Slot) (val : Tick) (flt : FaultFlags) (j : Nat) (s : State) : Prop where
  rv : (s.tmo.get slot).rv = val
  cnt : (s.tmo.get slot).cnt.toNat = val.toNat - j
  flt : s.flt = flt

/-- The Timeout just constructed has been ticked 0 times (R116). -/
theorem countedDown_constructed (slot : Slot) (val : Tick) (s : State) :
    CountedDown slot val s.flt 0 (respond (.counter val) (setTmo slot (Timeout.ofReset val) s)) where
  rv := by rw [respond_tmo, setTmo_tmo, timeoutFile_get_set_same, Timeout.ofReset]
  cnt := by rw [respond_tmo, setTmo_tmo, timeoutFile_get_set_same, Timeout.ofReset, Nat.sub_zero]
  flt := rfl

/-- One more tick, by the counter left (R117): while ticks are left it is one less, and after that it stays 0. -/
theorem CountedDown.next {t : BitVec 3} {slot : Slot} {val : Tick} {flt : FaultFlags} {j : Nat} {s : State}
    (hslot : slotOf t = some slot) (h : CountedDown slot val flt j s) :
    ∃ u, exec (.tmoTick t) s = .next u ∧ u.response = countdownAnswer val.toNat .elapsed j ∧
      CountedDown slot val flt (j + 1) u := by
  obtain ⟨hrv, hcnt, hflt⟩ := h
  unfold countdownAnswer
  split
  next hleft =>
    have hpos : 0 < (s.tmo.get slot).cnt.toNat := by omega
    obtain ⟨-, hlower⟩ := tick_of_pos hpos
    have hval : (s.tmo.get slot).cnt - 1#32 = BitVec.ofNat 32 (val.toNat - 1 - j) := by
      apply BitVec.eq_of_toNat_eq
      rw [BitVec.toNat_ofNat]
      omega
    refine ⟨_, exec_tmoTick_of_pos hslot hpos, by rw [respond_response, hval], ?_, ?_, hflt⟩
    · rw [respond_tmo, setTmo_tmo, timeoutFile_get_set_same, hrv]
    · simp only [respond_tmo, setTmo_tmo, timeoutFile_get_set_same]
      omega
  next hout =>
    refine ⟨_, exec_tmoTick_of_zero hslot (by omega), raise_response .., ?_, ?_, hflt⟩
    · rw [raise_tmo, hrv]
    · rw [raise_tmo]
      omega

/-- Settles O37: the constructed Timeout has been ticked 0 times, each tick keeps the count (`CountedDown.next`), so any
number of them does (`runInstrs_replicate`). -/
theorem timeoutAcceptsExactlyNTicks : Obligations.TimeoutAcceptsExactlyNTicks := by
  intro t slot val s s0 k hslot hnew
  rw [exec_tmoNew hslot] at hnew
  cases hnew
  obtain ⟨u, hrun, hu⟩ := runInstrs_replicate (fun _ _ h => CountedDown.next hslot h) k 0 _
    (countedDown_constructed slot val s)
  rw [Nat.zero_add] at hu
  rw [← List.range_eq_range'] at hrun
  exact ⟨u, hrun, hu.rv, hu.cnt, hu.flt⟩

end Sys2Proof.Machine
end

section
/-!
PROOFS. The statements of 44_monitors.md: what each of the six monitor operations does (R127, R129 to R131, R133, R134)
with the flag update of 45_safe_output.md R141, and how many bad readings and ticks a monitor lets pass (R125).
-/

namespace Sys2Proof.Machine

/-! ### TMON.CHECK -/

/-- R127, a good reading. -/
theorem exec_tmonCheck_of_ok {s1 s2 : Raw} {s : State} {p : Pos} (h : fusedPosition s s1 s2 = .ok p) :
    exec (.tmonCheck s1 s2) s =
      .next (respond (.checked p false) (flagUpdate Config.params .checkGood (setPos p (restart .thr s)))) := by
  simp only [exec, execTmonCheck, checkThrottle, h]

section
variable {s1 s2 : Raw} {s : State} {e : ThrottleError} (hbad : fusedPosition s s1 s2 = .error e)
include hbad

/-- R127, a bad reading within grace: the grace tick is the micro-operation's decrement (`tick_of_pos`). -/
theorem exec_tmonCheck_of_masked (h : 0 < s.tmo.thr.cnt.toNat) :
    exec (.tmonCheck s1 s2) s = .next (respond (.checked 0#16 true) (flagUpdate Config.params .checkMasked
      (setPos 0#16 (setTmo .thr ⟨s.tmo.thr.rv, s.tmo.thr.cnt - 1#32⟩ s)))) := by
  obtain ⟨htick, -⟩ := tick_of_pos (t := .thr) h
  simp only [exec, execTmonCheck, checkThrottle, hbad, htick, TimeoutFile.get]

/-- R127, a bad reading past grace: the grace tick fails (`tick_of_zero`), and this reading's error is raised. -/
theorem exec_tmonCheck_of_escalated (h : s.tmo.thr.cnt.toNat = 0) :
    exec (.tmonCheck s1 s2) s =
      .next (raise e.kind (flagUpdate Config.params (.checkError e) (setPos 0#16 s))) := by
  have htick : tick .thr s = none := tick_of_zero h
  simp only [exec, execTmonCheck, checkThrottle, hbad, htick]

end

/-- Settles O38: the three outcomes of the check, with the flag update of each written out. -/
theorem tmonCheckDebounces : Obligations.TmonCheckDebounces :=
  fun _ _ _ => ⟨fun _ hgood => exec_tmonCheck_of_ok hgood, fun _ hbad hpos => exec_tmonCheck_of_masked hbad hpos,
    fun _ hbad hzero => exec_tmonCheck_of_escalated hbad hzero⟩

/-! ### A run of bad readings -/

/-- A run in two parts: the second goes on from the state the first leaves (R40). -/
theorem runInstrs_append (first second : List Instr) (s : State) :
    runInstrs (first ++ second) s =
      (runInstrs first s).bind fun o => (runInstrs second o.2).map fun o' => (o.1 ++ o'.1, o'.2) := by
  induction first generalizing s with
  | nil => simp [runInstrs]
  | cons i rest ih =>
    rw [List.cons_append]
    cases hexec : exec i s with
    | next t =>
      rw [runInstrs_cons hexec, runInstrs_cons hexec, ih]
      cases runInstrs rest t with
      | none => rfl
      | some o => simp [Function.comp_def]
    | fault _ => simp [runInstrs, hexec]
    | refused _ => simp [runInstrs, hexec]

/-- What the check of the bad reading `r` answers after `j` bad readings, the grace counter having been `n` before them:
masked while grace lasts, and then the reading's own error `e r`. -/
def graceAnswer (n : Nat) (e : Raw × Raw → ThrottleError) (j : Nat) (r : Raw × Raw) : Option Response :=
  if j < n then some (.ok (.checked 0#16 true)) else some (.error (e r).kind)

/-- What holds after the bad readings `made`, whose errors are `e`, were checked from state `s₀`. -/
structure GraceCounted (e : Raw × Raw → ThrottleError) (s₀ : State) (made : List (Raw × Raw)) (s : State) : Prop where
  maps : s.maps = s₀.maps
  tol : s.tol = s₀.tol
  rv : s.tmo.thr.rv = s₀.tmo.thr.rv
  cnt : s.tmo.thr.cnt.toNat = s₀.tmo.thr.cnt.toNat - made.length
  pos : made ≠ [] → s.pos = 0#16
  tqV : s.flt.tqV = s₀.flt.tqV
  mainV : s.flt.mainV = s₀.flt.mainV
  escalated : ∀ r, made.getLast? = some r → s₀.tmo.thr.cnt.toNat < made.length →
    s.flt = { s₀.flt with thrV := true, thrK := (e r).kind.code }
  masked : made.length ≤ s₀.tmo.thr.cnt.toNat → s.flt = s₀.flt

theorem graceCounted_nil (e : Raw × Raw → ThrottleError) (s : State) : GraceCounted e s [] s where
  maps := rfl
  tol := rfl
  rv := rfl
  cnt := rfl
  pos := fun h => absurd rfl h
  tqV := rfl
  mainV := rfl
  escalated := by simp
  masked := fun _ => rfl

/-- One more bad reading, by the grace left (R127): while there is some it takes one and leaves the flags; after that it
sets FLT_THR with its own kind, over whatever an earlier one left there. -/
theorem GraceCounted.next {e : Raw × Raw → ThrottleError} {s₀ s : State} {made : List (Raw × Raw)} {r : Raw × Raw}
    (h : GraceCounted e s₀ made s) (hbad : fusedPosition s₀ r.1 r.2 = .error (e r)) :
    ∃ u, exec (.tmonCheck r.1 r.2) s = .next u ∧ u.response = graceAnswer s₀.tmo.thr.cnt.toNat e made.length r ∧
      GraceCounted e s₀ (made ++ [r]) u := by
  have hcnt := h.cnt
  have hlength : (made ++ [r]).length = made.length + 1 := List.length_append
  rw [← fusedPosition_congr h.maps h.tol] at hbad
  unfold graceAnswer
  split
  next hleft =>
    have hpos : 0 < s.tmo.thr.cnt.toNat := by omega
    have hlower : (s.tmo.thr.cnt - 1#32).toNat + 1 = s.tmo.thr.cnt.toNat := (tick_of_pos (t := .thr) hpos).2
    have hticked : (s.tmo.thr.cnt - 1#32).toNat = s₀.tmo.thr.cnt.toNat - (made ++ [r]).length := by omega
    exact ⟨_, exec_tmonCheck_of_masked hbad hpos, rfl,
      { maps := h.maps, tol := h.tol, rv := h.rv, cnt := hticked, pos := fun _ => rfl, tqV := h.tqV, mainV := h.mainV
        escalated := fun _ _ hout => by omega
        masked := fun _ => h.masked (by omega) }⟩
  next hout =>
    have hstill : s.tmo.thr.cnt.toNat = s₀.tmo.thr.cnt.toNat - (made ++ [r]).length := by omega
    refine ⟨_, exec_tmonCheck_of_escalated hbad (by omega), rfl,
      { maps := h.maps, tol := h.tol, rv := h.rv, cnt := hstill, pos := fun _ => rfl, tqV := h.tqV, mainV := h.mainV
        escalated := fun r' hlast _ => ?_
        masked := fun _ => by omega }⟩
    obtain rfl : r = r' := by simpa using hlast
    simp only [raise_flt, flagUpdate_flt, flagsAfter, setPos_flt, h.tqV, h.mainV]

/-- Any bad readings in a row, by the last one: each answers by the grace left before it. -/
theorem runInstrs_badReadings {e : Raw × Raw → ThrottleError} {s : State} (readings : List (Raw × Raw))
    (hbad : ∀ r ∈ readings, fusedPosition s r.1 r.2 = .error (e r)) :
    ∃ u, runInstrs (readings.map fun r => .tmonCheck r.1 r.2) s
      = some (readings.mapIdx (graceAnswer s.tmo.thr.cnt.toNat e), u) ∧ GraceCounted e s readings u := by
  induction readings using List.reverseRecOn with
  | nil => exact ⟨s, rfl, graceCounted_nil e s⟩
  | append_singleton made r ih =>
    rw [List.forall_mem_append, List.forall_mem_singleton] at hbad
    obtain ⟨hmade, hlast⟩ := hbad
    obtain ⟨t, hrun, ht⟩ := ih hmade
    obtain ⟨u, hexec, hanswer, hu⟩ := ht.next hlast
    refine ⟨u, ?_, hu⟩
    rw [List.map_append, runInstrs_append, hrun, Option.bind_some, List.map_singleton, runInstrs_cons hexec, hanswer,
      List.mapIdx_concat]
    rfl

/-- Settles O39: no reading has been made, each one keeps the count (`GraceCounted.next`), so any list of them does
(`runInstrs_badReadings`). -/
theorem graceTimeoutMasksExactlyItsCount : Obligations.GraceTimeoutMasksExactlyItsCount := by
  intro s readings e hbad
  obtain ⟨u, hrun, hu⟩ := runInstrs_badReadings readings hbad
  exact ⟨u, hrun, hu.rv, hu.cnt, hu.pos, hu.escalated, hu.masked⟩

/-! ### MMON.TICK and QMON.TICK -/

section
variable {P : Config.Params} {slot : Slot} {e : ErrorKind} {good bad : MonitorOutcome} {s : State}

/-- R129, R133: a tick above 0 is the micro-operation's decrement (`tick_of_pos`), and its counter is returned. -/
theorem monitorTick_of_pos (h : 0 < (s.tmo.get slot).cnt.toNat) :
    monitorTick P slot e good bad s = respond (.counter ((s.tmo.get slot).cnt - 1#32))
      (flagUpdate P good (setTmo slot ⟨(s.tmo.get slot).rv, (s.tmo.get slot).cnt - 1#32⟩ s)) := by
  obtain ⟨htick, -⟩ := tick_of_pos h
  simp only [monitorTick, htick, setTmo_tmo, timeoutFile_get_set_same]

/-- R129, R133: a tick at 0 fails (`tick_of_zero`), and the monitor's own fault is raised. -/
theorem monitorTick_of_zero (h : (s.tmo.get slot).cnt.toNat = 0) :
    monitorTick P slot e good bad s = raise e (flagUpdate P bad s) := by
  simp only [monitorTick, tick_of_zero h]

end

theorem exec_mmonTick (s : State) :
    exec .mmonTick s = .next (monitorTick Config.params .main .main .mainTickOk .mainTickFault s) := rfl

theorem exec_qmonTick (s : State) :
    exec .qmonTick s = .next (monitorTick Config.params .fresh .torque .torqueTickOk .torqueTickFault s) := rfl

/-- Settles O40: the tick of slot 1; of the flags a success writes none and a failure writes FLT_MAIN. -/
theorem mmonTickSupervises : Obligations.MmonTickSupervises := fun s =>
  ⟨fun hpos => (exec_mmonTick s).trans (congrArg _ (monitorTick_of_pos (slot := .main) hpos)),
    fun hzero => (exec_mmonTick s).trans (congrArg _ (monitorTick_of_zero (slot := .main) hzero))⟩

/-- Settles O43: the tick of slot 3; of the flags a success writes none and a failure writes FLT_TQ. -/
theorem qmonTickSupervises : Obligations.QmonTickSupervises := fun s =>
  ⟨fun hpos => (exec_qmonTick s).trans (congrArg _ (monitorTick_of_pos (slot := .fresh) hpos)),
    fun hzero => (exec_qmonTick s).trans (congrArg _ (monitorTick_of_zero (slot := .fresh) hzero))⟩

/-! ### A run of monitor ticks -/

/-- What holds after `j` ticks of a monitor's time base from state `s₀`, a failing tick having the outcome `bad`. -/
structure MonitorTicked (P : Config.Params) (slot : Slot) (bad : MonitorOutcome) (s₀ : State) (j : Nat) (s : State) :
    Prop where
  cnt : (s.tmo.get slot).cnt.toNat = (s₀.tmo.get slot).cnt.toNat - j
  flt : s.flt = if (s₀.tmo.get slot).cnt.toNat < j then flagsAfter P bad s₀.flt else s₀.flt

section
variable {P : Config.Params} {slot : Slot} {e : ErrorKind} {good bad : MonitorOutcome} {s₀ : State}
  (hgood : ∀ f, flagsAfter P good f = f) (hbad : ∀ f, flagsAfter P bad (flagsAfter P bad f) = flagsAfter P bad f)
include hgood hbad

/-- One more tick, by the counter left (R129, R133): while ticks are left it takes one and leaves the flags; after
that it answers the fault, and setting the fault's flag again changes nothing. -/
theorem MonitorTicked.next {j : Nat} {s : State} (h : MonitorTicked P slot bad s₀ j s) :
    (monitorTick P slot e good bad s).response = countdownAnswer (s₀.tmo.get slot).cnt.toNat e j ∧
      MonitorTicked P slot bad s₀ (j + 1) (monitorTick P slot e good bad s) := by
  obtain ⟨hcnt, hflt⟩ := h
  unfold countdownAnswer
  split
  next hleft =>
    have hpos : 0 < (s.tmo.get slot).cnt.toNat := by omega
    obtain ⟨-, hlower⟩ := tick_of_pos hpos
    have hval : (s.tmo.get slot).cnt - 1#32 = BitVec.ofNat 32 ((s₀.tmo.get slot).cnt.toNat - 1 - j) := by
      apply BitVec.eq_of_toNat_eq
      rw [BitVec.toNat_ofNat]
      omega
    rw [monitorTick_of_pos hpos]
    refine ⟨by rw [respond_response, hval], ?_, ?_⟩
    · simp only [respond_tmo, flagUpdate_tmo, setTmo_tmo, timeoutFile_get_set_same]
      omega
    · rw [respond_flt, flagUpdate_flt, hgood, setTmo_flt, hflt, if_neg (by omega), if_neg (by omega)]
  next hout =>
    rw [monitorTick_of_zero (by omega)]
    refine ⟨raise_response .., ?_, ?_⟩
    · rw [raise_tmo, flagUpdate_tmo]
      omega
    · rw [raise_flt, flagUpdate_flt, if_pos (by omega), hflt]
      split
      · exact hbad _
      · rfl

/-- Any number of a monitor's ticks in a row: as many succeed as its counter says. -/
theorem runInstrs_monitorTicks {i : Instr} (hexec : ∀ s, exec i s = .next (monitorTick P slot e good bad s)) (k : Nat) :
    ∃ u, runInstrs (List.replicate k i) s₀
      = some ((List.range k).map (countdownAnswer (s₀.tmo.get slot).cnt.toNat e), u) ∧
      MonitorTicked P slot bad s₀ k u := by
  obtain ⟨u, hrun, hu⟩ := runInstrs_replicate
    (fun j s h => ⟨_, hexec s, MonitorTicked.next hgood hbad h⟩) k 0 s₀ (⟨rfl, rfl⟩ : MonitorTicked P slot bad s₀ 0 s₀)
  rw [Nat.zero_add] at hu
  rw [← List.range_eq_range'] at hrun
  exact ⟨u, hrun, hu⟩

end

/-- R141 over a run of MMON.TICK: FLT_MAIN is set when `failed`, that one of the ticks failed. -/
theorem flags_of_mainTicks (P : Config.Params) (f : FaultFlags) (failed : Prop) [Decidable failed] :
    (if failed then flagsAfter P .mainTickFault f else f) = { f with mainV := f.mainV || decide failed } := by
  by_cases h : failed
  · simp [h, flagsAfter]
  · simp [h]

/-- R141 over a run of QMON.TICK: FLT_TQ is set when `failed`, that one of the ticks failed. -/
theorem flags_of_torqueTicks (P : Config.Params) (f : FaultFlags) (failed : Prop) [Decidable failed] :
    (if failed then flagsAfter P .torqueTickFault f else f) = { f with tqV := f.tqV || decide failed } := by
  by_cases h : failed
  · simp [h, flagsAfter]
  · simp [h]

/-- Settles O45: both are runs of a monitor's ticks (`runInstrs_monitorTicks`), whose last flags say whether one
failed. -/
theorem monitorTicksFailWhenCountRunsOut : Obligations.MonitorTicksFailWhenCountRunsOut := by
  refine fun s k => ⟨?_, ?_⟩
  · obtain ⟨u, hrun, hu⟩ := runInstrs_monitorTicks (s₀ := s) (fun _ => rfl) (fun _ => rfl) exec_mmonTick k
    exact ⟨u, hrun, hu.flt.trans (flags_of_mainTicks ..)⟩
  · obtain ⟨u, hrun, hu⟩ := runInstrs_monitorTicks (s₀ := s) (fun _ => rfl) (fun _ => rfl) exec_qmonTick k
    exact ⟨u, hrun, hu.flt.trans (flags_of_torqueTicks ..)⟩

/-! ### MMON.PING and MMON.PONG -/

/-- R141: a ping clears FLT_MAIN exactly when it restarts liveness and the flag is not sticky. -/
theorem flagsAfter_pingSent (P : Config.Params) (f : FaultFlags) :
    flagsAfter P .pingSent f = if P.pingSendResets && !P.mainFaultSticky then { f with mainV := false } else f := by
  cases hresets : P.pingSendResets with
  | false => simp [flagsAfter, hresets]
  | true => cases hsticky : P.mainFaultSticky <;> simp [flagsAfter, hresets, hsticky]

/-- R130 with R141, for every value of the parameters. -/
theorem sendPing_eq (P : Config.Params) (s : State) :
    sendPing P s = { s with
      ping := s.ping + 1#32
      tmo := if P.pingSendResets then s.tmo.set .main s.tmo.main.restart else s.tmo
      flt := if P.pingSendResets && !P.mainFaultSticky then { s.flt with mainV := false } else s.flt
      response := some (.ok (.ping (s.ping + 1#32))) } := by
  have hflags := flagsAfter_pingSent P s.flt
  by_cases hresets : P.pingSendResets = true
  · simp only [sendPing, if_pos hresets, flagUpdate, restart_flt, setPing_flt, hflags]
    rfl
  · simp only [sendPing, if_neg hresets, flagUpdate, setPing_flt, hflags]
    rfl

/-- Settles O41: the counter's successor wraps at 32 bits, and the rest is `sendPing_eq` at the open parameters. -/
theorem mmonPingCounts : Obligations.MmonPingCounts := fun s =>
  ⟨s.ping + 1#32, BitVec.toNat_add .., congrArg Host.Outcome.next (sendPing_eq Config.params s)⟩

/-- R141: a pong that matches clears FLT_MAIN exactly when it is not sticky. -/
theorem flagsAfter_pongMatched (P : Config.Params) (f : FaultFlags) :
    flagsAfter P .pongMatched f = if P.mainFaultSticky then f else { f with mainV := false } := by
  cases hsticky : P.mainFaultSticky <;> simp [flagsAfter, hsticky]

/-- Settles O42: the two branches of the comparison with the ping counter. -/
theorem mmonPongMatches : Obligations.MmonPongMatches := by
  refine fun val s => ⟨fun hmatch => ?_, fun hother => ?_⟩
  · have hflags := flagsAfter_pongMatched Config.params s.flt
    simp only [exec, execMmonPong, receivePong, if_pos hmatch, flagUpdate, restart_flt, hflags]
    rfl
  · simp only [exec, execMmonPong, receivePong, if_neg hother]
    rfl

/-! ### QMON.FRAME -/

section
variable {P : Config.Params} {torque : I16} {pos : Pos} {s : State}

/-- R134, a plausible TorqueRequest. -/
theorem torqueFrame_of_plausible (h : P.plaus pos torque = true) :
    torqueFrame P 0#3 torque pos s =
      respond (.sampled false) (flagUpdate P .frameGood (restart .esc (restart .fresh s))) := if_pos h

/-- R134, an implausible TorqueRequest within grace: freshness is not escalation, so the tick is of the escalation
Timeout before the operation (`tick_of_pos`). -/
theorem torqueFrame_of_masked (h : ¬ P.plaus pos torque = true) (hpos : 0 < s.tmo.esc.cnt.toNat) :
    torqueFrame P 0#3 torque pos s = respond (.sampled true) (flagUpdate P .frameMasked
      (setTmo .esc ⟨s.tmo.esc.rv, s.tmo.esc.cnt - 1#32⟩ (restart .fresh s))) := by
  obtain ⟨htick, -⟩ := tick_of_pos (t := .esc) (s := restart .fresh s) hpos
  have hfresh : ((restart .fresh s).tmo.get .esc) = s.tmo.esc := rfl
  rw [hfresh] at htick
  simp [torqueFrame, variantOfSel, h, htick]

/-- R134, an implausible TorqueRequest past grace (`tick_of_zero`). -/
theorem torqueFrame_of_escalated (h : ¬ P.plaus pos torque = true) (hzero : s.tmo.esc.cnt.toNat = 0) :
    torqueFrame P 0#3 torque pos s = raise .torque (flagUpdate P .frameFault (restart .fresh s)) := by
  have htick : tick .esc (restart .fresh s) = none := tick_of_zero hzero
  simp [torqueFrame, variantOfSel, h, htick]

/-- R134: a message of another variant is Torque at once, with no Timeout touched. -/
theorem torqueFrame_of_other {v : BitVec 3} (hlo : 1 ≤ v.toNat) (hhi : v.toNat ≤ 4) :
    torqueFrame P v torque pos s = raise .torque (flagUpdate P .frameFault s) := by
  obtain rfl | rfl | rfl | rfl : v = 1#3 ∨ v = 2#3 ∨ v = 3#3 ∨ v = 4#3 := by bv_omega
  all_goals rfl

/-- R134: a selector that names no variant is IllegalOp, and writes no flag. -/
theorem torqueFrame_of_undefined {v : BitVec 3} (h : 5 ≤ v.toNat) :
    torqueFrame P v torque pos s = raise .illegalOp s := by
  simp only [torqueFrame, variantOfSel_eq_none h]
  rfl

end

theorem exec_qmonFrame (v : BitVec 3) (torque : I16) (pos : Pos) (s : State) :
    exec (.qmonFrame v torque pos) s = .next (torqueFrame Config.params v torque pos s) := rfl

/-- Settles O44: the five outcomes of the frame, with the flag update of each written out. -/
theorem qmonFrameChecksTorque : Obligations.QmonFrameChecksTorque := by
  refine ⟨fun torque pos s => ?_, fun v torque pos s hlo hhi => ?_, fun v torque pos s hundefined => ?_⟩
  · rw [exec_qmonFrame]
    split
    next hplausible => rw [torqueFrame_of_plausible hplausible]; rfl
    next hnot =>
      split
      next hpos => rw [torqueFrame_of_masked hnot hpos]; rfl
      next hzero => rw [torqueFrame_of_escalated hnot (by omega)]; rfl
  · rw [exec_qmonFrame, torqueFrame_of_other hlo hhi]; rfl
  · rw [exec_qmonFrame, torqueFrame_of_undefined hundefined]

end Sys2Proof.Machine
end

section
/-!
PROOFS. The statements of 45_safe_output.md: what OUT.GET and the level output report (R142, R144), that every escalated
fault reaches them (R140, R141), and what can clear the Main flag (R143).
-/

namespace Sys2Proof.Machine

/-! ### OUT.GET and the level output -/

section
variable {f : FaultFlags}

theorem faultSource_of_main (hmain : f.mainV = true) : faultSource f = (3#2, 10#4) := by
  simp only [faultSource, if_pos hmain, ErrorKind.code]

theorem faultSource_of_throttle (hmain : f.mainV = false) (hthr : f.thrV = true) : faultSource f = (1#2, f.thrK) := by
  simp [faultSource, hmain, hthr]

theorem faultSource_of_torque (hmain : f.mainV = false) (hthr : f.thrV = false) (htq : f.tqV = true) :
    faultSource f = (2#2, 9#4) := by
  simp [faultSource, hmain, hthr, htq, ErrorKind.code]

theorem faultSource_of_none (hmain : f.mainV = false) (hthr : f.thrV = false) (htq : f.tqV = false) :
    faultSource f = (0#2, 0#4) := by
  simp [faultSource, hmain, hthr, htq]

theorem faultFlags_any_iff : f.any = true ↔ f.mainV = true ∨ f.thrV = true ∨ f.tqV = true := by
  simp only [FaultFlags.any, Bool.or_eq_true, or_assoc]

/-- Source 0 is reported for no fault only (R142). -/
theorem faultSource_src_ne_zero (h : f.any = true) : (faultSource f).1 ≠ 0#2 := by
  cases hmain : f.mainV with
  | true => simp [faultSource_of_main hmain]
  | false =>
    cases hthr : f.thrV with
    | true => simp [faultSource_of_throttle hmain hthr]
    | false =>
      have htq : f.tqV = true := by simpa [faultFlags_any_iff, hmain, hthr] using h
      simp [faultSource_of_torque hmain hthr htq]

end

/-- R142. -/
theorem exec_outGet (s : State) :
    exec .outGet s =
      .next (respond (.output s.fault (positionOut s) (faultSource s.flt).1 (faultSource s.flt).2) s) := rfl

theorem positionOut_of_fault {s : State} (h : s.fault = true) : positionOut s = 0#16 := if_pos h

/-- OUT.GET while the level output is 1 (R140, R142). -/
theorem exec_outGet_of_fault {s : State} (h : s.fault = true) :
    exec .outGet s = .next (respond (.output true 0#16 (faultSource s.flt).1 (faultSource s.flt).2) s) := by
  rw [exec_outGet, positionOut_of_fault h, h]

/-- OUT.GET while the level output is 0: Operational, with POS (R142). -/
theorem exec_outGet_of_no_fault {s : State} (h : s.fault = false) :
    exec .outGet s = .next (respond (.output false s.pos (faultSource s.flt).1 (faultSource s.flt).2) s) := by
  have hpos : positionOut s = s.pos := by simp [positionOut, h]
  rw [exec_outGet, hpos, h]

/-- Settles O46: the level output decides the state tag and the position, and the first flag set in the order Main,
Throttle, Torque decides the source and kind (the `faultSource` lemmas). -/
theorem outGetReportsFaults : Obligations.OutGetReportsFaults := by
  refine fun s => ⟨fun hmain => ?_, fun hmain hthr => ?_, fun hmain hthr htq => ?_, fun hmain hthr htq => ?_⟩
  · have hfault : s.fault = true := faultFlags_any_iff.2 (.inl hmain)
    rw [exec_outGet_of_fault hfault, faultSource_of_main hmain, respond]
  · have hfault : s.fault = true := faultFlags_any_iff.2 (.inr (.inl hthr))
    rw [exec_outGet_of_fault hfault, faultSource_of_throttle hmain hthr, respond]
  · have hfault : s.fault = true := faultFlags_any_iff.2 (.inr (.inr htq))
    rw [exec_outGet_of_fault hfault, faultSource_of_torque hmain hthr htq, respond]
  · have hfault : s.fault = false := by simp [State.fault, FaultFlags.any, hmain, hthr, htq]
    rw [exec_outGet_of_no_fault hfault, faultSource_of_none hmain hthr htq, respond]

/-- Settles O47: the level output is by definition the OR, OUT.GET reports it as its state tag, and the position out is 0
while it is set (`positionOut_of_fault`). -/
theorem faultLevelIsTheStateTag : Obligations.FaultLevelIsTheStateTag :=
  fun s => ⟨rfl, _, _, _, exec_outGet s, positionOut_of_fault⟩

/-! ### Escalated faults -/

/-- The outcomes that R141's table lists as an escalated fault: the errors other than IllegalOp. -/
def MonitorOutcome.escalates : MonitorOutcome → Bool
  | .checkError _ => true
  | .mainTickFault => true
  | .torqueTickFault => true
  | .frameFault => true
  | _ => false

/-- The flag update of an escalated fault sets a flag, so the level output is 1 (R140, R141). -/
theorem fault_of_escalates {o : MonitorOutcome} (ho : o.escalates = true) (P : Config.Params) (e : ErrorKind)
    (s : State) : (raise e (flagUpdate P o s)).fault = true := by
  refine faultFlags_any_iff.2 ?_
  rw [raise_flt, flagUpdate_flt]
  cases o with
  | mainTickFault => exact .inl rfl
  | checkError => exact .inr (.inl rfl)
  | torqueTickFault | frameFault => exact .inr (.inr rfl)
  | _ => cases ho

section
variable {P : Config.Params} {s : State} {e : ErrorKind}

theorem respond_response_ne_error {r : Result} : (respond r s).response ≠ some (.error e) := by
  simp

/-- A monitor's tick answers an error only when it escalates (R129, R133). -/
theorem monitorTick_fault_of_error {slot : Slot} {raised : ErrorKind} {good bad : MonitorOutcome}
    (hbad : bad.escalates = true) (h : (monitorTick P slot raised good bad s).response = some (.error e)) :
    (monitorTick P slot raised good bad s).fault = true := by
  unfold monitorTick at h ⊢
  split at h
  next => exact absurd h respond_response_ne_error
  next => exact fault_of_escalates hbad P raised s

/-- TMON.CHECK answers an error only when it escalates (R127). -/
theorem checkThrottle_fault_of_error {s1 s2 : Raw} (h : (checkThrottle P s1 s2 s).response = some (.error e)) :
    (checkThrottle P s1 s2 s).fault = true := by
  unfold checkThrottle at h ⊢
  split at h
  next => exact absurd h respond_response_ne_error
  next =>
    split at h
    next => exact absurd h respond_response_ne_error
    next => exact fault_of_escalates rfl P _ _

/-- QMON.FRAME answers an error other than IllegalOp only when it escalates (R134). -/
theorem torqueFrame_fault_of_error {v : BitVec 3} {torque : I16} {pos : Pos}
    (h : (torqueFrame P v torque pos s).response = some (.error e)) (he : e ≠ .illegalOp) :
    (torqueFrame P v torque pos s).fault = true := by
  by_cases hundefined : 5 ≤ v.toNat
  · rw [torqueFrame_of_undefined hundefined, raise_response] at h
    cases h
    exact absurd rfl he
  by_cases hother : 1 ≤ v.toNat
  · rw [torqueFrame_of_other hother (by omega)]
    exact fault_of_escalates rfl P _ _
  obtain rfl : v = 0#3 := by bv_omega
  by_cases hplausible : P.plaus pos torque = true
  · rw [torqueFrame_of_plausible hplausible] at h
    exact absurd h respond_response_ne_error
  · by_cases hpos : 0 < s.tmo.esc.cnt.toNat
    · rw [torqueFrame_of_masked hplausible hpos] at h
      exact absurd h respond_response_ne_error
    · rw [torqueFrame_of_escalated hplausible (by omega)]
      exact fault_of_escalates rfl P _ _

end

/-- Settles O48: each of the four operations that answers an error escalates, which sets the level output; OUT.GET then
hands on 0 and names a source (`faultSource_src_ne_zero`). -/
theorem escalatedFaultsReachTheOutput : Obligations.EscalatedFaultsReachTheOutput := by
  intro i s t e hexec herror hmonitor
  have hfault : t.fault = true := by
    obtain ⟨s1, s2, rfl⟩ | rfl | rfl | ⟨v, torque, pos, rfl, he⟩ := hmonitor
    all_goals cases hexec
    · exact checkThrottle_fault_of_error herror
    · exact monitorTick_fault_of_error rfl herror
    · exact monitorTick_fault_of_error rfl herror
    · exact torqueFrame_fault_of_error herror he
  exact ⟨hfault, _, _, exec_outGet_of_fault hfault, faultSource_src_ne_zero hfault⟩

/-! ### The Main flag -/

theorem read_fltMainV_eq_one {s : State} : s.read .fltMainV = 1 ↔ s.flt.mainV = true := Bool.toNat_eq_one

/-- The rows of the access table that may write FLT_MAIN (R26, R141). -/
theorem fltMainV_mem_written {P : Config.Params} {i : Instr} (h : .fltMainV ∈ written P i) :
    i = .mmonTick ∨ (i = .mmonPing ∧ P.pingSendResets = true ∧ P.mainFaultSticky = false) ∨
      (∃ val, i = .mmonPong val ∧ P.mainFaultSticky = false) := by
  cases i with
  | mmonTick => exact .inl rfl
  | mmonPing => simpa [written] using h
  | mmonPong val => simpa [written] using h
  | _ => simp [written] at h

/-- MMON.TICK sets the Main flag or leaves it (R129, R141). -/
theorem monitorTick_keeps_mainV {P : Config.Params} {s : State} (h : s.flt.mainV = true) :
    (monitorTick P .main .main .mainTickOk .mainTickFault s).flt.mainV = true := by
  by_cases hpos : 0 < (s.tmo.get .main).cnt.toNat
  · rw [monitorTick_of_pos hpos]
    exact h
  · rw [monitorTick_of_zero (by omega)]
    rfl

/-- What an operation can do to a Main flag that is set (R141, R143): only a ping that resets liveness and a matching
pong clear it, and only while it is not sticky. -/
theorem exec_mainV {i : Instr} {s t : State} (hset : s.flt.mainV = true) (hexec : exec i s = .next t) :
    t.flt.mainV = true ∨ (Config.mainFaultSticky = false ∧
      ((i = .mmonPing ∧ Config.pingSendResets = true) ∨ i = .mmonPong s.ping)) := by
  by_cases hrow : .fltMainV ∈ written Config.params i
  · obtain rfl | ⟨rfl, hresets, hsticky⟩ | ⟨val, rfl, hsticky⟩ := fltMainV_mem_written hrow
    · cases hexec
      exact .inl (monitorTick_keeps_mainV hset)
    · exact .inr ⟨hsticky, .inl ⟨rfl, hresets⟩⟩
    · by_cases hmatch : val = s.ping
      · exact .inr ⟨hsticky, .inr (by rw [hmatch])⟩
      · rw [(mmonPongMatches val s).2 hmatch] at hexec
        cases hexec
        exact .inl hset
  · obtain ⟨hkept, -⟩ := registersOutsideTheRowStay i s t hexec
    exact .inl (read_fltMainV_eq_one.1 ((hkept .fltMainV hrow).trans (read_fltMainV_eq_one.2 hset)))

/-- Settles O54, by the four things a step can be (`step_cases`): an idle step and a rejected word write no flag, a reset
is excluded, and an instruction does what `exec_mainV` says. -/
theorem mainFaultStaysUntilReset : Obligations.MainFaultStaysUntilReset := by
  intro s t hset hstep hnoReset
  obtain ⟨-, h⟩ | ⟨rest, hinput, -⟩ | ⟨w, rest, i, hinput, hdecode, h⟩ | ⟨w, rest, e, -, -, h⟩ := step_cases s
  · rw [h] at hstep
    cases hstep
    exact .inl hset
  · exact absurd hinput (hnoReset rest)
  · rw [h] at hstep
    have hbefore : ({ s with input := rest } : State).flt.mainV = true := hset
    obtain hkept | ⟨hsticky, ⟨rfl, hresets⟩ | rfl⟩ := exec_mainV hbefore hstep
    · exact .inl hkept
    · exact .inr ⟨hsticky, w, rest, hinput, .inl ⟨hdecode, hresets⟩⟩
    · exact .inr ⟨hsticky, w, rest, hinput, .inr hdecode⟩
  · rw [h] at hstep
    cases hstep
    rw [rejectWord_flt]
    exact .inl hset

end Sys2Proof.Machine
end

section
/-!
PROOFS. The statements of 60_exceptions.md: how an operation ends (R150, R152, R155), said once for all 23 instructions
(`exec_ends`), and undefined commands (R158).
-/

namespace Sys2Proof.Machine

/-! ### How an operation ends -/

/-- The errors an operation can raise: those of its row of R152, and for QMON.FRAME the one that its selector leaves
(R134). -/
def raisable : Instr → List ErrorKind
  | .qmonFrame v _ _ => if 5 ≤ v.toNat then [.illegalOp] else [.torque]
  | i => (statuses i).reduceOption

/-- The state in which an operation raises an error: the writes before the raise and the flag update (R141, R155). -/
def leftByError : Instr → ErrorKind → State → State
  | .tmonCheck _ _, e, s => setFlt { s.flt with thrV := true, thrK := e.code } (setPos 0#16 s)
  | .mmonTick, _, s => setFlt { s.flt with mainV := true } s
  | .qmonTick, _, s => setFlt { s.flt with tqV := true } s
  | .qmonFrame v _ _, _, s =>
      if 5 ≤ v.toNat then s
      else setFlt { s.flt with tqV := true } (if v = 0#3 then restart .fresh s else s)
  | _, _, s => s

section
variable {v : BitVec 3} {torque : I16} {pos : Pos} {e : ErrorKind} {s : State}

theorem leftByError_qmonFrame_of_undefined (h : 5 ≤ v.toNat) : leftByError (.qmonFrame v torque pos) e s = s :=
  if_pos h

theorem leftByError_qmonFrame_of_defined (h : ¬ 5 ≤ v.toNat) :
    leftByError (.qmonFrame v torque pos) e s =
      setFlt { s.flt with tqV := true } (if v = 0#3 then restart .fresh s else s) :=
  if_neg h

end

/-- The two ways the operation ends from `s`: with a result, or with one of its errors and that error's record. -/
inductive Ends (i : Instr) (s : State) : State → Prop where
  | ok (r : Result) (t : State) : Ends i s (respond r t)
  | error {e : ErrorKind} (he : e ∈ raisable i) : Ends i s (raise e (leftByError i e s))

theorem none_mem_statuses (i : Instr) : none ∈ statuses i := by
  cases i <;> exact List.mem_cons_self

theorem mem_statuses_of_raisable {i : Instr} {e : ErrorKind} (h : e ∈ raisable i) : some e ∈ statuses i := by
  cases i with
  | qmonFrame v torque pos =>
    simp only [raisable] at h
    split at h
    all_goals
      obtain rfl := List.mem_singleton.1 h
      simp [statuses]
  | _ => exact List.reduceOption_mem_iff.1 h

/-- The errors of a payload's decoding; BadCrc only where the variant bears a CRC (R86, R90). -/
theorem decodePayload_error {L : Config.Layout} {v : Variant} {hasData : Bool} {len : BitVec 4} {bytes : List Byte}
    {e : ErrorKind} (h : decodePayload L v hasData len bytes = .error e) :
    e = .noData ∨ e = .badDlc ∨ (crcBearing v = true ∧ e = .badCrc) := by
  obtain ⟨-, hd⟩ | ⟨-, -, hd⟩ | ⟨-, -, hbearing, -, hd⟩ | ⟨-, -, -, hd⟩ :=
    decodePayload_cases L v hasData len bytes
  all_goals
    rw [hd] at h
    cases h
  · exact .inl rfl
  · exact .inr (.inl rfl)
  · exact .inr (.inr ⟨hbearing, rfl⟩)

theorem throttleError_kind_eq (e : ThrottleError) : e.kind = .sensorOutOfRange ∨ e.kind = .sensorMismatch := by
  cases e
  · exact .inl rfl
  · exact .inr rfl

/-- An operation that answers what decoding gives, and whose errors leave the state alone. -/
theorem Ends.answer {i : Instr} {s : State} {o : Except ErrorKind Message}
    (hraisable : ∀ e, o = .error e → e ∈ raisable i) (hleft : ∀ e, leftByError i e s = s) :
    Ends i s (Machine.answer o s) := by
  cases o with
  | ok m => exact .ok _ s
  | error e =>
    have herror : Ends i s (raise e (leftByError i e s)) := .error (hraisable e rfl)
    rwa [hleft e] at herror

theorem canDec_ends (id : CanId) (hasData : Bool) (len : BitVec 4) (bytes : List Byte) (s : State) :
    Ends (.canDec id hasData len bytes) s (answer (decodeRawFrame defaultLayout id hasData len bytes) s) := by
  refine .answer (fun e h => ?_) fun _ => rfl
  unfold decodeRawFrame at h
  split at h
  next =>
    cases h
    simp [raisable, statuses]
  next =>
    obtain rfl | rfl | ⟨-, rfl⟩ := decodePayload_error h
    all_goals simp [raisable, statuses]

theorem checkThrottle_ends (s1 s2 : Raw) (s : State) :
    Ends (.tmonCheck s1 s2) s (checkThrottle Config.params s1 s2 s) := by
  unfold checkThrottle
  split
  next => exact .ok _ _
  next e _ =>
    split
    next => exact .ok _ _
    next => exact .error (by simpa [raisable, statuses] using throttleError_kind_eq e)

/-- A monitor's tick ends with its own fault only where it is the operation's error and its flag row the record (R129,
R133). -/
theorem monitorTick_ends {i : Instr} {slot : Slot} {e : ErrorKind} {good bad : MonitorOutcome} {s : State}
    (he : e ∈ raisable i) (hleft : flagUpdate Config.params bad s = leftByError i e s) :
    Ends i s (monitorTick Config.params slot e good bad s) := by
  unfold monitorTick
  split
  next => exact .ok _ _
  next =>
    rw [hleft]
    exact .error he

theorem torqueFrame_ends (v : BitVec 3) (torque : I16) (pos : Pos) (s : State) :
    Ends (.qmonFrame v torque pos) s (torqueFrame Config.params v torque pos s) := by
  have raises {e : ErrorKind} {u : State} (he : e ∈ raisable (.qmonFrame v torque pos))
      (hu : leftByError (.qmonFrame v torque pos) e s = u) : Ends (.qmonFrame v torque pos) s (raise e u) :=
    hu ▸ .error he
  by_cases hundefined : 5 ≤ v.toNat
  · rw [torqueFrame_of_undefined hundefined]
    exact raises (by simp [raisable, hundefined]) (leftByError_qmonFrame_of_undefined hundefined)
  have htorque : .torque ∈ raisable (.qmonFrame v torque pos) := by simp [raisable, hundefined]
  by_cases hother : 1 ≤ v.toNat
  · have hne : v ≠ 0#3 := by bv_omega
    rw [torqueFrame_of_other hother (by omega)]
    refine raises htorque ?_
    rw [leftByError_qmonFrame_of_defined hundefined, if_neg hne]
    rfl
  obtain rfl : v = 0#3 := by bv_omega
  by_cases hplausible : Config.params.plaus pos torque = true
  · rw [torqueFrame_of_plausible hplausible]
    exact .ok _ _
  by_cases hpos : 0 < s.tmo.esc.cnt.toNat
  · rw [torqueFrame_of_masked hplausible hpos]
    exact .ok _ _
  · rw [torqueFrame_of_escalated hplausible (by omega)]
    exact raises htorque rfl

/-- Every operation completes, in one of its two ways (R150, R152, R155). -/
theorem exec_ends (i : Instr) (s : State) : ∃ t, exec i s = .next t ∧ Ends i s t := by
  have of_payload {v : Variant} {hasData : Bool} {len : BitVec 4} {bytes : List Byte}
      (hexec : exec i s = .next (answer (decodePayload defaultLayout v hasData len bytes) s))
      (hleft : ∀ e, leftByError i e s = s) (hnoData : .noData ∈ raisable i) (hbadDlc : .badDlc ∈ raisable i)
      (hbadCrc : crcBearing v = true → .badCrc ∈ raisable i) : ∃ t, exec i s = .next t ∧ Ends i s t := by
    refine ⟨_, hexec, .answer (fun e h => ?_) hleft⟩
    obtain rfl | rfl | ⟨hbearing, rfl⟩ := decodePayload_error h
    · exact hnoData
    · exact hbadDlc
    · exact hbadCrc hbearing
  cases i with
  | crcTbl | crcSum | mapNew | mapMap | thrNew | mmonPing | outGet => exact ⟨_, rfl, .ok _ _⟩
  | canEnc v torque counter =>
    refine ⟨_, rfl, ?_⟩
    split
    case h_1 | h_2 | h_3 => exact .ok _ _
    case h_4 | h_5 | h_6 => exact .error (by simp [raisable, statuses])
  | canDec id hasData len bytes => exact ⟨_, rfl, canDec_ends id hasData len bytes s⟩
  | thrPos s1 s2 =>
    refine ⟨_, rfl, ?_⟩
    split
    next => exact .ok _ _
    next e _ => exact .error (by simpa [raisable, statuses] using throttleError_kind_eq e)
  | tmoNew t val | tmoReset t =>
    refine ⟨_, rfl, ?_⟩
    split
    next => exact .error (by simp [raisable, statuses])
    next => exact .ok _ _
  | tmoTick t =>
    refine ⟨_, rfl, ?_⟩
    split
    next => exact .error (by simp [raisable, statuses])
    next =>
      split
      next => exact .ok _ _
      next => exact .error (by simp [raisable, statuses])
  | tmonCheck s1 s2 => exact ⟨_, rfl, checkThrottle_ends s1 s2 s⟩
  | mmonTick | qmonTick => exact ⟨_, rfl, monitorTick_ends (by simp [raisable, statuses]) rfl⟩
  | mmonPong val =>
    refine ⟨_, rfl, ?_⟩
    unfold receivePong
    split
    all_goals exact .ok _ _
  | qmonFrame v torque pos => exact ⟨_, rfl, torqueFrame_ends v torque pos s⟩
  | frameTorqueRequest | frameVcmKeepAlive1 | frameVcmKeepAlive2 | frameInverterStatus
  | frameInverterTemperature =>
    exact of_payload rfl (fun _ => rfl) (by simp [raisable, statuses]) (by simp [raisable, statuses])
      (by simp [raisable, statuses, crcBearing])

/-- `exec_ends` for a next state in hand. -/
theorem ends_of_exec {i : Instr} {s t : State} (h : exec i s = .next t) : Ends i s t := by
  obtain ⟨u, hu, hends⟩ := exec_ends i s
  rw [h] at hu
  cases hu
  exact hends

/-- Either way there is a response, with a status of the operation's row (R152). -/
theorem Ends.status_mem {i : Instr} {s t : State} (h : Ends i s t) :
    ∃ r, t.response = some r ∧ r.status ∈ statuses i := by
  cases h with
  | ok r u => exact ⟨.ok r, rfl, none_mem_statuses i⟩
  | @error e he => exact ⟨.error e, rfl, mem_statuses_of_raisable he⟩

/-- An operation that answers an error left that error's record. -/
theorem Ends.eq_raise {i : Instr} {s t : State} {e : ErrorKind} (h : Ends i s t)
    (herror : t.response = some (.error e)) : e ∈ raisable i ∧ t = raise e (leftByError i e s) := by
  cases h with
  | ok r u => exact absurd herror respond_response_ne_error
  | error he =>
    cases herror
    exact ⟨he, rfl⟩

/-- Settles O51: a result is status OK, which is in every row, and an error is one the operation can raise
(`Ends.status_mem`). -/
theorem statusesArePerOperation : Obligations.StatusesArePerOperation :=
  fun _ _ _ hexec => (ends_of_exec hexec).status_mem

/-- Settles O49: the operation left the record of an error it can raise (`Ends.eq_raise`), and for MMON.TICK, QMON.TICK and
each kind of QMON.FRAME there is only one such error. -/
theorem errorsLeaveTheirRecord : Obligations.ErrorsLeaveTheirRecord := by
  intro i s t e hexec herror
  obtain ⟨he, ht⟩ := (ends_of_exec hexec).eq_raise herror
  cases i with
  | tmonCheck => exact ⟨by simpa [raisable, statuses] using he, ht⟩
  | mmonTick =>
    obtain rfl : e = .main := by simpa [raisable, statuses] using he
    exact ht
  | qmonTick =>
    obtain rfl : e = .torque := by simpa [raisable, statuses] using he
    exact ht
  | qmonFrame v torque pos =>
    dsimp only
    split
    next hundefined =>
      obtain rfl : e = .illegalOp := by simpa [raisable, hundefined] using he
      rwa [leftByError_qmonFrame_of_undefined hundefined] at ht
    next hdefined =>
      obtain rfl : e = .torque := by simpa [raisable, hdefined] using he
      rw [leftByError_qmonFrame_of_defined hdefined] at ht
      rw [ht]
      split
      next => rfl
      next => rfl
  | _ => exact ht

/-! ### Every step -/

/-- Settles O5, by the four things a step can be (`step_cases`): a word that decodes runs an operation, which ends with a
response (`exec_ends`) and does not touch the input; a rejected word is answered; otherwise no word was presented. -/
theorem everyStepCompletes : Obligations.EveryStepCompletes := by
  intro s
  obtain ⟨hinput, h⟩ | ⟨_, hinput, h⟩ | ⟨_, rest, i, hinput, -, h⟩ | ⟨_, rest, e, hinput, -, h⟩ := step_cases s
  · exact ⟨_, h, fun w rest hpresent => by simp [hinput] at hpresent⟩
  · exact ⟨_, h, fun w rest hpresent => by simp [hinput] at hpresent⟩
  · obtain ⟨t, hexec, hends⟩ := exec_ends i { s with input := rest }
    obtain ⟨r, hr, -⟩ := hends.status_mem
    refine ⟨t, h.trans hexec, fun w rest' hpresent => ?_⟩
    obtain ⟨-, rfl⟩ : _ ∧ rest = rest' := by simpa [hinput] using hpresent
    exact ⟨by rw [hr]; rfl, (updatesWithin_of_exec hexec).input_eq⟩
  · refine ⟨_, h, fun w rest' hpresent => ?_⟩
    obtain ⟨-, rfl⟩ : _ ∧ rest = rest' := by simpa [hinput] using hpresent
    cases e with
    | illegalOpcode | unknownIdentifier => exact ⟨rfl, rfl⟩

/-! ### Undefined commands -/

theorem decodeCmd_of_undefined {w : CmdWord} (h : (opcodeOf w).toNat ∉ definedOpcodes) :
    decodeCmd w = .error (.illegalOpcode (opcodeOf w)) := by
  unfold decodeCmd
  split
  case h_19 => rfl
  all_goals next hop => simp [definedOpcodes, hop] at h

/-- An undefined slot or variant selector is an operand of the decoded instruction, and the instruction raises IllegalOp
(R51, R52, R61). -/
theorem decodeCmd_of_undefined_selector {w : CmdWord} (hop : (opcodeOf w).toNat ∈ [0x30, 0x31, 0x32, 0x10, 0x45])
    (hsel : 5 ≤ (field w 8 3).toNat) :
    ∃ i, decodeCmd w = .ok i ∧ ∀ s, exec i s = .next (raise .illegalOp s) := by
  obtain ⟨-, -, -, -, -, hslots, -, -⟩ := selectorsNameSlotsAndMaps
  obtain ⟨-, hslot⟩ := hslots (field w 8 3) hsel
  obtain ⟨-, hcanEnc⟩ := canEncRejects
  obtain ⟨-, -, hqmonFrame⟩ := qmonFrameChecksTorque
  simp only [List.mem_cons, List.not_mem_nil, or_false] at hop
  obtain hop | hop | hop | hop | hop := hop
  · refine ⟨.tmoNew (field w 8 3) (field w 16 32), by simp [decodeCmd, hop], fun s => ?_⟩
    obtain ⟨hnew, -, -⟩ := hslot (field w 16 32) s
    exact hnew
  · refine ⟨.tmoTick (field w 8 3), by simp [decodeCmd, hop], fun s => ?_⟩
    obtain ⟨-, htick, -⟩ := hslot 0#32 s
    exact htick
  · refine ⟨.tmoReset (field w 8 3), by simp [decodeCmd, hop], fun s => ?_⟩
    obtain ⟨-, -, hreset⟩ := hslot 0#32 s
    exact hreset
  · exact ⟨.canEnc (field w 8 3) (field w 16 16) (encCounter w), by simp [decodeCmd, hop],
      fun s => hcanEnc _ _ _ s hsel⟩
  · exact ⟨.qmonFrame (field w 8 3) (field w 16 16) (field w 48 16), by simp [decodeCmd, hop],
      fun s => hqmonFrame _ _ _ s hsel⟩

/-- Settles O6: an undefined opcode is rejected by the decoder, an undefined selector by the operation; either way the step
raises IllegalOp, which packs to its code alone (`pack_error_toNat`). -/
theorem undefinedCommandsAreIllegal : Obligations.UndefinedCommandsAreIllegal := by
  intro s w rest hinput hundefined
  have hstep : step s = .next (raise .illegalOp { s with input := rest }) := by
    obtain hop | ⟨hop, hsel⟩ := hundefined
    · exact step_of_decode_error hinput (decodeCmd_of_undefined hop)
    · obtain ⟨i, hdecode, hexec⟩ := decodeCmd_of_undefined_selector hop hsel
      exact (stepRunsDecodedInstruction s _ rest i hinput hdecode).trans (hexec _)
  exact ⟨_, hstep, rfl, pack_error_toNat .illegalOp, ⟨rfl, rfl, rfl, rfl, rfl, rfl⟩, rfl⟩

end Sys2Proof.Machine
end

section
/-!
PROOFS. The statements of 70_reset_and_hazards.md: what a reset event and an idle step leave (R170), that a block with no
map configured hands on position 0 (R171, R103), and what each unit does in the reset state (R171).
-/

namespace Sys2Proof.Machine

/-! ### An unconfigured block -/

/-- Being unconfigured is a matter of three kinds of registers: the maps' bounds and POS. -/
theorem unconfigured_iff_read {s : State} :
    s.Unconfigured ↔ (∀ m, s.read (.mapMin m) = s.read (.mapMax m)) ∧ s.read .pos = 0 where
  mp h := ⟨fun m => congrArg BitVec.toNat (h.degenerate m), congrArg BitVec.toNat h.pos⟩
  mpr := fun ⟨hmaps, hpos⟩ => ⟨fun m => BitVec.eq_of_toNat_eq (hmaps m), BitVec.eq_of_toNat_eq hpos⟩

theorem State.Unconfigured.of_sameRegs {s t : State} (hs : s.Unconfigured) (h : s.sameRegs t) : t.Unconfigured := by
  obtain ⟨hmaps, -, -, -, hpos, -⟩ := h
  exact ⟨hmaps ▸ hs.degenerate, hpos ▸ hs.pos⟩

/-- R103: no input maps. -/
theorem State.Unconfigured.map_eq_none {s : State} (hs : s.Unconfigured) (m : MapSel) (x : Raw) :
    (s.maps.get m).map x = none :=
  Machine.map_eq_none.2 (.inl (hs.degenerate m))

/-- R103, R105: every reading is out of range. -/
theorem State.Unconfigured.fusedPosition_eq {s : State} (hs : s.Unconfigured) (s1 s2 : Raw) :
    fusedPosition s s1 s2 = .error .sensorOutOfRange :=
  fusedPosition_of_unmapped (.inl (hs.map_eq_none .map1 s1))

/-- R142: POS holds 0, so 0 is handed on whether a flag is set or not. -/
theorem State.Unconfigured.positionOut_eq {s : State} (hs : s.Unconfigured) : positionOut s = 0#16 := by
  rw [positionOut, hs.pos, ite_self]

/-! ### What writes the maps and POS -/

/-- Only MAP.NEW and THR.NEW have a map's bounds in their row of the access table (R26). -/
theorem mapBounds_not_mem_written {P : Config.Params} {i : Instr} (h : configuresMap i = false) (m : MapSel) :
    .mapMin m ∉ written P i ∧ .mapMax m ∉ written P i := by
  cases i with
  | mapNew | thrNew => cases h
  | mmonPing => cases hr : P.pingSendResets <;> cases hs : P.mainFaultSticky <;> simp [written, hr, hs]
  | mmonPong => cases hs : P.mainFaultSticky <;> simp [written, hs]
  | _ => simp [written]

/-- Only TMON.CHECK has POS in its row of the access table (R26). -/
theorem pos_mem_written {P : Config.Params} {i : Instr} (h : .pos ∈ written P i) : ∃ s1 s2, i = .tmonCheck s1 s2 := by
  cases i with
  | tmonCheck s1 s2 => exact ⟨s1, s2, rfl⟩
  | _ => simp [written] at h

/-- A bad reading leaves POS at 0, masked or escalated (R127). -/
theorem exec_tmonCheck_pos_of_error {s1 s2 : Raw} {s t : State} {e : ThrottleError}
    (hbad : fusedPosition s s1 s2 = .error e) (hexec : exec (.tmonCheck s1 s2) s = .next t) : t.pos = 0#16 := by
  by_cases hgrace : 0 < s.tmo.thr.cnt.toNat
  · rw [exec_tmonCheck_of_masked hbad hgrace] at hexec
    cases hexec
    rfl
  · rw [exec_tmonCheck_of_escalated hbad (by omega)] at hexec
    cases hexec
    rfl

/-- An operation that writes no map leaves the block unconfigured: the maps stay as they are, and the one operation that
writes POS finds every reading out of range and writes 0. -/
theorem State.Unconfigured.exec {i : Instr} {s t : State} (hs : s.Unconfigured) (hi : configuresMap i = false)
    (hexec : exec i s = .next t) : t.Unconfigured := by
  obtain ⟨hkept, -⟩ := registersOutsideTheRowStay i s t hexec
  obtain ⟨hmaps, hpos⟩ := unconfigured_iff_read.1 hs
  refine unconfigured_iff_read.2 ⟨fun m => ?_, ?_⟩
  · obtain ⟨hmin, hmax⟩ := mapBounds_not_mem_written hi m
    rw [hkept _ hmin, hkept _ hmax, hmaps m]
  · by_cases hrow : .pos ∈ written Config.params i
    · obtain ⟨s1, s2, rfl⟩ := pos_mem_written hrow
      exact congrArg BitVec.toNat (exec_tmonCheck_pos_of_error (hs.fusedPosition_eq s1 s2) hexec)
    · rw [hkept _ hrow, hpos]

theorem reset_unconfigured : State.reset.Unconfigured where
  degenerate m := by
    rw [reset_maps_get]
    rfl
  pos := rfl

/-- Settles O55. For the step, by the four things it can be (`step_cases`): an instruction that writes no map keeps the
block unconfigured (`State.Unconfigured.exec`), a reset makes it so, and an idle step or a rejected word changes no
register. -/
theorem unconfiguredBlockHandsOnZero : Obligations.UnconfiguredBlockHandsOnZero := by
  refine ⟨reset_unconfigured, fun s t hs hstep hwords => ?_, fun s hs => ?_⟩
  · obtain ⟨-, h⟩ | ⟨rest, -, h⟩ | ⟨w, rest, i, hinput, hdecode, h⟩ | ⟨w, rest, e, -, -, h⟩ := step_cases s
    · rw [h] at hstep
      cases hstep
      exact hs
    · rw [h] at hstep
      cases hstep
      exact reset_unconfigured.of_sameRegs ⟨rfl, rfl, rfl, rfl, rfl, rfl⟩
    · have htaken : ({ s with input := rest } : State).Unconfigured := hs.of_sameRegs ⟨rfl, rfl, rfl, rfl, rfl, rfl⟩
      exact htaken.exec (hwords w rest i hinput hdecode) (h ▸ hstep)
    · rw [h] at hstep
      cases hstep
      exact hs.of_sameRegs (by simp [State.sameRegs])
  · refine ⟨s.fault, (faultSource s.flt).1, (faultSource s.flt).2, ?_⟩
    rw [exec_outGet, hs.positionOut_eq, respond]

/-! ### The reset state -/

/-- Every reset value is 0, so a restart stores what the counter already holds (R24, R122). -/
@[simp] theorem restart_reset (slot : Slot) : restart slot State.reset = State.reset := by
  cases slot <;> rfl

/-- Every counter is 0 (R24), so the next tick of any slot fails (R120). -/
theorem reset_cnt_toNat (slot : Slot) : (State.reset.tmo.get slot).cnt.toNat = 0 := by
  rw [reset_tmo_get]
  rfl

/-- R171, R134: with no grace left an implausible TorqueRequest escalates, and the restarts of either case store 0. -/
theorem exec_qmonFrame_reset (torque : I16) (pos : Pos) :
    exec (.qmonFrame 0#3 torque pos) State.reset = .next (
      if Config.plaus pos torque then respond (.sampled false) State.reset
      else raise .torque (setFlt ⟨false, 0#4, true, false⟩ State.reset)) := by
  rw [exec_qmonFrame]
  split
  next hplausible =>
    rw [torqueFrame_of_plausible (P := Config.params) hplausible, restart_reset, restart_reset]
    rfl
  next himplausible =>
    rw [torqueFrame_of_escalated (P := Config.params) himplausible (reset_cnt_toNat .esc), restart_reset]
    rfl

/-- Settles O2. U2: the maps are degenerate (`State.Unconfigured`). U3 and the three monitors: every counter is 0
(`reset_cnt_toNat`), so the first tick fails and the first bad reading or frame escalates. OUT.GET: no flag is set. -/
theorem resetStateFailsClosed : Obligations.ResetStateFailsClosed := by
  refine ⟨fun m x => ?_, fun s1 s2 => ?_, fun t slot hslot => ⟨?_, ?_⟩, fun s1 s2 => ?_, ?_, ?_, exec_qmonFrame_reset, ?_,
    rfl⟩
  · rw [exec_mapMap, reset_unconfigured.map_eq_none, respond]
  · exact exec_thrPos_of_error (reset_unconfigured.fusedPosition_eq s1 s2)
  · exact exec_tmoTick_of_zero hslot (reset_cnt_toNat slot)
  · rw [exec_tmoReset hslot, restart_reset, reset_tmo_get]
    rfl
  · exact exec_tmonCheck_of_escalated (reset_unconfigured.fusedPosition_eq s1 s2) (reset_cnt_toNat .thr)
  · rw [exec_mmonTick, monitorTick_of_zero (reset_cnt_toNat .main)]
    rfl
  · rw [exec_qmonTick, monitorTick_of_zero (reset_cnt_toNat .fresh)]
    rfl
  · exact exec_outGet_of_no_fault rfl

/-! ### A reset event, and no event -/

/-- Settles O3: which of the two a step finds is decided by the fetch alone (`fetch_reset`, `fetch_nil`). -/
theorem resetEventAndIdleStep : Obligations.ResetEventAndIdleStep := by
  refine ⟨fun s rest hreset => ?_, fun s hidle => ?_⟩
  · simp only [step, fetch_reset hreset, afterReset]
  · simp only [step, fetch_nil hidle]

end Sys2Proof.Machine
end
